-- ==== Sys2Proof/Word.lean ====
section
/-! DEFINITION. The word types of the Helzic 2740 and its index types (00_scope.md sections 4 and 5). -/

namespace Sys2Proof

/-- A word of 32 bits, the unit of every transfer, register and address. -/
abbrev Word := BitVec 32

/-- A physical word address, 0 to 16,777,215. -/
abbrev PhysAddr := BitVec 24

/-- A logical start address as a descriptor holds it, 0 to 262,143. -/
abbrev StartAddr := BitVec 18

/-- A logical address as a channel presents it: a start address plus a memory count, which may run
past 262,143 (R78) and fills the 19-bit field of a fault record (R181). -/
abbrev LogAddr := BitVec 19

/-- A channel number, which is also its slot number (00_scope.md section 5). -/
abbrev ChannelNo := Fin 16

/-- A map set number. -/
abbrev SetNo := Fin 8

/-- A page number within a map set. -/
abbrev PageNo := Fin 64

end Sys2Proof
end

