-- ==== Sys2Proof/Config.lean ====
section
/-! DEFINITION. What the part fixes for good, and the one value its manual leaves free. -/

namespace Sys2Proof

/-- The event queue holds at most 24 records (R114). -/
abbrev Config.queueDepth : Nat := 24

/-- A staging queue holds at most 4 words (R55). -/
abbrev Config.stagingDepth : Nat := 4

/-- At most twelve link-only descriptors may stand in a row (R40). -/
abbrev Config.linkOnlyLimit : BitVec 4 := 12

/-- A streak of eight grants makes its owner yield (R101). -/
abbrev Config.streakLimit : BitVec 4 := 8

/-- IDENT (R172). -/
abbrev Config.ident : Word := 0x27400110

/-- The period of the interval timer after either reset, in microseconds (R153). -/
abbrev Config.resetPeriod : BitVec 16 := 1000

/-- FREE VALUE (DESIGN CHOICE, safe, log entry 7). Where several channels time out on one tick, "their
order on the list ... is the order in which the part takes the tick at each channel, and is not fixed
by slot number" (R159). `tickOrder d n` is the rank of channel `n` at draw `d`; nothing is known of it. -/
opaque Config.tickOrder : Nat → ChannelNo → Nat

end Sys2Proof
end

