-- ==== Sys2Proof/Syntax.lean ====
section
/-! DEFINITION. The commands of the part: one constructor of `Instr` for each row of
spec/opcode_table.json, and the fifteen host commands of R177. -/

namespace Sys2Proof

/-- How a read of the part ends on the system bus (R105): acknowledge with the word read, or bus error. -/
inductive BusRead where
  | ok (w : Word)
  | busError
deriving DecidableEq, Repr

/-- How a write of the part ends on the system bus (R105). -/
inductive BusWrite where
  | ok
  | busError
deriving DecidableEq, Repr

/-- The fifteen host commands (R177). -/
inductive HostCommand where
  | bind
  | unbind
  | start
  | halt
  | continueChannel
  | abort
  | clearFault
  | readChannel
  | loadMap
  | writeEntry
  | readEntry
  | probe
  | setLog
  | logStop
  | logConsumed
deriving DecidableEq, Repr

/-- The commands the part takes: events from outside, host accesses of the register window, and the
internal transitions that the table lists as rows of their own. -/
inductive Instr where
  /-- RESETIN (R2, R75, R97, R130, R135, R153, R162). -/
  | powerOnReset
  /-- A write of `w` to CONTROL whose bit 31 is set (R174). -/
  | softReset (w : Word)
  /-- The peripheral of slot `n` raises request valid with the code OFFER and the word `w` (R50, R57). -/
  | offer (n : ChannelNo) (w : Word)
  /-- Request valid rises with the code ASK (R50, R63). -/
  | ask (n : ChannelNo)
  /-- Request valid rises with the code END (R50, R66). -/
  | endBlock (n : ChannelNo)
  /-- The code FAIL is presented, by a rise of request valid or a change of the code (R51, R68). -/
  | fail (n : ChannelNo)
  /-- The peripheral lowers request valid (R50). -/
  | requestValidFall (n : ChannelNo)
  /-- The descriptor read in flight ends (R34). -/
  | descReadComplete (r : BusRead)
  /-- The data write in flight ends (R59, R60). -/
  | dataWriteComplete (r : BusWrite)
  /-- The data read in flight ends (R62). -/
  | dataReadComplete (r : BusRead)
  /-- The map image read in flight ends (R86). -/
  | mapReadComplete (r : BusRead)
  /-- The log write in flight ends (R138). -/
  | logWriteComplete (r : BusWrite)
  /-- The arbiter makes a grant (R100). -/
  | grant
  /-- The prescaler reaches the period (R154). -/
  | tick
  /-- The stall counter of channel `n` stands at its limit (R159). -/
  | stallTimeout (n : ChannelNo)
  /-- The head age stands at the delay (R125). -/
  | ageCondition
  /-- A write to COMMAND of BIND's code (R15). Its operands stand in OPERAND A, B and C (R163), as
  those of every host command do. -/
  | bind
  /-- A write to COMMAND of UNBIND's code (R16). -/
  | unbind
  /-- A write to COMMAND of START's code (R17). -/
  | start
  /-- A write to COMMAND of HALT's code (R18). -/
  | halt
  /-- A write to COMMAND of CONTINUE's code (R22, R23). -/
  | continueChannel
  /-- A write to COMMAND of ABORT's code (R24). -/
  | abort
  /-- A write to COMMAND of CLEAR FAULT's code (R27). -/
  | clearFault
  /-- A write to COMMAND of READ CHANNEL's code (R28). -/
  | readChannel
  /-- A write to COMMAND of LOAD MAP's code (R84). -/
  | loadMap
  /-- A write to COMMAND of WRITE ENTRY's code (R90). -/
  | writeEntry
  /-- A write to COMMAND of READ ENTRY's code (R93). -/
  | readEntry
  /-- A write to COMMAND of PROBE's code (R94). -/
  | probe
  /-- A write to COMMAND of SET LOG's code (R147). -/
  | setLog
  /-- A write to COMMAND of LOG STOP's code (R148). -/
  | logStop
  /-- A write to COMMAND of LOG CONSUMED's code (R149). -/
  | logConsumed
  /-- A write of `w` to COMMAND whose low eight bits are no command code (R165). -/
  | unknownCommand (w : Word)
  /-- A write of `w` to CONTROL with bit 31 clear, made for its master enable (R109, R173). -/
  | masterEnable (w : Word)
  /-- A write of `w` to CONTROL with bit 31 clear, made for its interrupt enables (R129, R173). -/
  | interruptEnable (w : Word)
  /-- A write of `w` to INTERRUPT STATUS (R127, R175). -/
  | interruptStatusClear (w : Word)
  /-- A read of EVENT WORD 1 (R118, R119). -/
  | pop
  /-- A write of `w` to EVENT SETTINGS (R124, R178). -/
  | eventSettingsWrite (w : Word)
  /-- A write of `w` to TIMER PERIOD (R155, R178). -/
  | timerPeriodWrite (w : Word)
  /-- A write of `w` to the window at `offset` (R171). -/
  | registerWrite (offset : BitVec 5) (w : Word)
  /-- The request standing on slot `n` is met again (R52). -/
  | waitingRequestMet (n : ChannelNo)
  /-- The post of channel `n` that waited for its slot is made (R10). -/
  | waitingPost (n : ChannelNo)
  /-- The completion condition of channel `n` holds (R69). -/
  | blockComplete (n : ChannelNo)
  /-- Channel `n` leaves HALTING (R19). -/
  | leaveHalting (n : ChannelNo)
  /-- Channel `n` leaves ABORTING (R25). -/
  | leaveAborting (n : ChannelNo)
  /-- The drain of a load ends (R85). -/
  | drainEnd
  /-- A waiting WRITE ENTRY replaces its entry (R91). -/
  | writeEntryReplace
  /-- The log writer begins a ring record (R137). -/
  | logRecordBegin
  /-- The log writer begins the overflow record (R144). -/
  | overflowRecordBegin
  /-- A waiting LOG STOP completes (R148). -/
  | logStopComplete
deriving DecidableEq, Repr

end Sys2Proof
end

