-- ==== Sys2Proof/Machine/State.lean ====
section
/-! DEFINITION. The state of the part, as plain data, and the state after reset. Every field is named
in INVENTORY.md with the rule that gives it. -/

namespace Sys2Proof.Machine

/-- Why a run of the block would stop with a fault. The spec gives every command an effect in every
state, so there is no constructor: nothing raises one (safe). The channel faults of R131 are states of
the part, `FaultKind`, and not stops. -/
inductive Fault where
deriving DecidableEq, Repr

/-- Why a command would be refused by the model. -/
inductive Refusal where
  /-- A row that has no meaning yet, by its mnemonic (safe). No arm of `exec` raises it. -/
  | notModelled (mnemonic : String)
deriving DecidableEq, Repr

/-! ### Names and codes -/

/-- INBOUND moves words into memory, OUTBOUND to the peripheral (R29). -/
inductive Direction where
  | inbound
  | outbound
deriving DecidableEq, Repr

/-- The three steps of the settling sequence (R41). -/
inductive SettlingStep where
  | report
  | hold
  | select
deriving DecidableEq, Repr

/-- The ten states of a channel (R1, R3). The step is part of the state in SETTLING (R41). -/
inductive ChannelState where
  | disabled
  | idle
  | fetching
  | running
  | settling (step : SettlingStep)
  | holding
  | halting
  | halted
  | aborting
  | faulted
deriving DecidableEq, Repr

/-- Where CONTINUE returns a HALTED channel (R1, R18). -/
inductive ResumeState where
  | fetching
  | running
deriving DecidableEq, Repr

/-- A request on the channel link; its code and its word on the lines are `LinkRequest.code` and
`LinkRequest.data` (R50). -/
inductive LinkRequest where
  | offer (w : Word)
  | ask
  | endBlock
  | fail
deriving DecidableEq, Repr

/-- An answer on the channel link; its code and its word on the lines are `Answer.code` and `Answer.data`
(R50). -/
inductive Answer where
  | take
  | give (w : Word)
  | refuse
  | ack
deriving DecidableEq, Repr

/-- The kinds of event record (R112). -/
inductive EventKind where
  | done
  | short
  | chainEnd
  | held
  | halted
  | aborted
deriving DecidableEq, Repr

/-- The kinds of channel fault (R131). -/
inductive FaultKind where
  | pageInvalid
  | pageBeyond
  | readDenied
  | writeDenied
  | descFormat
  | chainLimit
  | busError
  | stallTimeout
  | periphFail
  | linkProtocol
deriving DecidableEq, Repr

/-- The result codes of host commands (R166). -/
inductive ResultCode where
  | ok
  | badCommand
  | badOperand
  | badState
  | busError
  | underrun
  | faultPending
deriving DecidableEq, Repr

/-- The states of the log writer (R136). -/
inductive LogState where
  | off
  | running
  | full
  | error
deriving DecidableEq, Repr

/-! ### Records -/

/-- An event record (R112). -/
structure EventRecord where
  kind : EventKind
  channel : ChannelNo
  descAddr : PhysAddr
  wordsDone : BitVec 16
  stamp : BitVec 16
deriving DecidableEq, Repr

/-- A fault record as its channel holds it, without a sequence number (R132). -/
structure FaultRecord where
  kind : FaultKind
  channel : ChannelNo
  descAddr : PhysAddr
  logical : LogAddr
  wordsDone : BitVec 16
  stamp : BitVec 16
deriving DecidableEq, Repr

/-- A fault record is unlogged, held whole, or logged, held as its kind alone (R1, R12). -/
inductive HeldFault where
  | unlogged (r : FaultRecord)
  | logged (k : FaultKind)
deriving DecidableEq, Repr

/-- The contents of an accepted transfer descriptor (R1, R29). The link is absent exactly when LAST is
set, and the alternate link is present exactly when ALT is set (R1), so the two flags are not stored
beside them. -/
structure Transfer where
  count : BitVec 16
  direction : Direction
  start : StartAddr
  notify : Bool
  hold : Bool
  link : Option PhysAddr
  altLink : Option PhysAddr
deriving DecidableEq, Repr

/-- The descriptor contents (R1, R30, R37). -/
inductive Contents where
  | transfer (d : Transfer)
  | linkOnly (link : PhysAddr)
deriving DecidableEq, Repr

/-- A channel record (R1). -/
structure Channel where
  state : ChannelState
  mapSet : Option SetNo
  stallLimit : BitVec 8
  stallCounter : BitVec 8
  descAddr : PhysAddr
  fetchProgress : BitVec 3
  fetched : List Word
  contents : Option Contents
  linkOnlyRun : BitVec 4
  exchanged : BitVec 16
  memoryCount : BitVec 16
  short : Bool
  resume : Option ResumeState
  abortWordsDone : Option (BitVec 16)
  staging : List Word
  request : Option LinkRequest
  pendingEvent : Option EventRecord
  fault : Option HeldFault
deriving DecidableEq, Repr

/-- The pins of a channel-link slot (R50). `lines` is the code and data on the request lines while
request valid is raised, and `none` while it is low. `answer` is the answer last driven, and
`answerValid` whether answer valid is raised. `early` is a request presented before answer valid has
fallen, which arrives when it falls. -/
structure Slot where
  lines : Option LinkRequest
  answerValid : Bool
  answer : Option Answer
  early : Option LinkRequest
deriving DecidableEq, Repr

/-- A page entry (R74). -/
structure PageEntry where
  valid : Bool
  read : Bool
  write : Bool
  frame : BitVec 12
  referenced : Bool
  modified : Bool
deriving DecidableEq, Repr

/-- The state of a map set (R73). -/
inductive SetState where
  | ready
  | loading
deriving DecidableEq, Repr

/-- A map set (R73). -/
structure MapSet where
  state : SetState
  limit : BitVec 7
  entries : Vector PageEntry 64
deriving DecidableEq, Repr

/-- The phase of a load (R73). -/
inductive LoadPhase where
  | draining
  | reading
deriving DecidableEq, Repr

/-- The loader record (R73). -/
structure Loader where
  set : SetNo
  source : PhysAddr
  newLimit : BitVec 7
  phase : LoadPhase
  progress : BitVec 7
deriving DecidableEq, Repr

/-- The kind of a transaction with its requester and the fields that only that kind has (R96). -/
inductive Purpose where
  | mapRead
  | logWrite (w : Word)
  | descRead (n : ChannelNo)
  | dataRead (n : ChannelNo) (set : SetNo) (page : PageNo)
  | dataWrite (n : ChannelNo) (set : SetNo) (page : PageNo) (w : Word)
deriving DecidableEq, Repr

/-- The delivery of a transaction (R96, R106). -/
inductive Delivery where
  | deliver
  | discard
  | orphan
deriving DecidableEq, Repr

/-- The transaction record (R96). -/
structure Transaction where
  purpose : Purpose
  address : PhysAddr
  delivery : Delivery
deriving DecidableEq, Repr

/-- The memory port: the transaction in flight and the fairness record (R96, R102). -/
structure Port where
  inFlight : Option Transaction
  streakOwner : Option ChannelNo
  streakLength : BitVec 4
deriving DecidableEq, Repr

/-- The event queue, its settings and the post wait list (R114, R116). -/
structure EventQueue where
  records : List EventRecord
  headAge : BitVec 8
  threshold : BitVec 8
  delay : BitVec 8
  waitList : List ChannelNo
deriving DecidableEq, Repr

/-- The fields of the overflow record that are fixed when it begins (R144). -/
structure OverflowRecord where
  channel : ChannelNo
  descAddr : PhysAddr
  logical : LogAddr
  waiting : BitVec 16
  stamp : BitVec 16
deriving DecidableEq, Repr

/-- What the record under way reports (R135). -/
inductive LogTarget where
  | channel (n : ChannelNo)
  | overflow (r : OverflowRecord)
deriving DecidableEq, Repr

/-- The record under way (R135). The reserve slot is slot C, the one after the ring (R134). -/
structure UnderWay where
  target : LogTarget
  slot : BitVec 11
  written : BitVec 2
deriving DecidableEq, Repr

/-- The fault-log writer (R135) with the fault order list (R133). -/
structure LogWriter where
  state : LogState
  base : PhysAddr
  capacity : BitVec 11
  writeIndex : BitVec 10
  unconsumed : BitVec 11
  nextSequence : BitVec 16
  underWay : Option UnderWay
  faultOrder : List ChannelNo
deriving DecidableEq, Repr

/-- The interval timer (R153). -/
structure Timer where
  period : BitVec 16
  prescaler : BitVec 16
  tickCount : BitVec 16
deriving DecidableEq, Repr

/-- A command in progress with its latched operands (R162). -/
structure Latched where
  command : HostCommand
  a : Word
  b : Word
  c : Word
deriving DecidableEq, Repr

/-- The command port (R162). Its status is BUSY exactly while a command is in progress. -/
structure CommandPort where
  inProgress : Option Latched
  lastResult : ResultCode
  refused : Bool
  lastCode : BitVec 8
  operandA : Word
  operandB : Word
  operandC : Word
  result0 : Word
  result1 : Word
  result2 : Word
deriving DecidableEq, Repr

/-- The causes and the output of the interrupt unit (R125, R126, R129). `intout` is true while INTOUT
is asserted. -/
structure Interrupts where
  events : Bool
  command : Bool
  fault : Bool
  log : Bool
  intout : Bool
deriving DecidableEq, Repr

/-- The stored bits of CONTROL (R173). -/
structure Control where
  masterEnable : Bool
  eventsEnable : Bool
  commandEnable : Bool
  faultEnable : Bool
  logEnable : Bool
deriving DecidableEq, Repr

/-- The state of the part. `readData` is the word last driven on SYSD for a POP. `tickDraws` and
`pending` are the model's own: the count of free values drawn, and the commands that wait. -/
structure State where
  channels : Vector Channel 16
  slots : Vector Slot 16
  sets : Vector MapSet 8
  loader : Option Loader
  port : Port
  queue : EventQueue
  log : LogWriter
  timer : Timer
  command : CommandPort
  interrupts : Interrupts
  control : Control
  readData : Word
  tickDraws : Nat
  pending : List Instr
deriving DecidableEq, Repr

/-! ### Reset values -/

/-- A channel record after either reset (R2). -/
def Channel.reset : Channel where
  state := .disabled
  mapSet := none
  stallLimit := 0
  stallCounter := 0
  descAddr := 0
  fetchProgress := 0
  fetched := []
  contents := none
  linkOnlyRun := 0
  exchanged := 0
  memoryCount := 0
  short := false
  resume := none
  abortWordsDone := none
  staging := []
  request := none
  pendingEvent := none
  fault := none

/-- A slot on which nothing has been presented (DESIGN CHOICE, unsafe, log entry 10). -/
def Slot.reset : Slot where
  lines := none
  answerValid := false
  answer := none
  early := none

/-- A cleared entry (R75). -/
def PageEntry.cleared : PageEntry where
  valid := false
  read := false
  write := false
  frame := 0
  referenced := false
  modified := false

/-- A map set after power-on reset (R75). -/
def MapSet.reset : MapSet where
  state := .ready
  limit := 64
  entries := Vector.replicate 64 PageEntry.cleared

/-- The memory port after power-on reset (R97). -/
def Port.reset : Port where
  inFlight := none
  streakOwner := none
  streakLength := 0

/-- The event queue after either reset (R114). -/
def EventQueue.reset : EventQueue where
  records := []
  headAge := 0
  threshold := 1
  delay := 0
  waitList := []

/-- The log writer after either reset (R135). -/
def LogWriter.reset : LogWriter where
  state := .off
  base := 0
  capacity := 0
  writeIndex := 0
  unconsumed := 0
  nextSequence := 1
  underWay := none
  faultOrder := []

/-- The interval timer after either reset (R153). -/
def Timer.reset : Timer where
  period := Config.resetPeriod
  prescaler := 0
  tickCount := 0

/-- The command port after either reset (R162). -/
def CommandPort.reset : CommandPort where
  inProgress := none
  lastResult := .ok
  refused := false
  lastCode := 0
  operandA := 0
  operandB := 0
  operandC := 0
  result0 := 0
  result1 := 0
  result2 := 0

/-- The interrupt unit after either reset (R128, R129). -/
def Interrupts.reset : Interrupts where
  events := false
  command := false
  fault := false
  log := false
  intout := false

/-- CONTROL after either reset (R173). -/
def Control.reset : Control where
  masterEnable := false
  eventsEnable := false
  commandEnable := false
  faultEnable := false
  logEnable := false

/-- The part right after power-on reset, with nothing on its slots and no command waiting. -/
def State.reset : State where
  channels := Vector.replicate 16 Channel.reset
  slots := Vector.replicate 16 Slot.reset
  sets := Vector.replicate 8 MapSet.reset
  loader := none
  port := Port.reset
  queue := EventQueue.reset
  log := LogWriter.reset
  timer := Timer.reset
  command := CommandPort.reset
  interrupts := Interrupts.reset
  control := Control.reset
  readData := 0
  tickDraws := 0
  pending := []

end Sys2Proof.Machine
end

