-- ==== Sys2Proof/Machine/Flags.lean ====
section
/-! DEFINITION. The interrupt causes and the interrupt output (R125, R126, R129). -/

namespace Sys2Proof.Machine

/-- The level of the EVENTS cause: the threshold condition or the age condition (R125). -/
def eventsLevel (q : EventQueue) : Bool :=
  decide (q.threshold.toNat ≤ q.records.length) ||
    (q.delay != 0 && !q.records.isEmpty && decide (q.delay ≤ q.headAge))

/-- INTOUT is asserted while a cause is raised or latched and its enable is set (R129). -/
def intoutLevel (c : Control) (i : Interrupts) : Bool :=
  (i.events && c.eventsEnable) || (i.command && c.commandEnable) ||
    (i.fault && c.faultEnable) || (i.log && c.logEnable)

/-- EVENTS takes its level and INTOUT follows its terms, at the end of an event (R125, R129, log entry
14). -/
def refreshInterrupts (s : State) : State :=
  let i := { s.interrupts with events := eventsLevel s.queue }
  { s with interrupts := { i with intout := intoutLevel s.control i } }

/-- The COMMAND cause latches (R126). -/
def latchCommand (s : State) : State :=
  { s with interrupts := { s.interrupts with command := true } }

/-- The FAULT cause latches (R126). -/
def latchFault (s : State) : State :=
  { s with interrupts := { s.interrupts with fault := true } }

/-- The LOG cause latches (R126). -/
def latchLog (s : State) : State :=
  { s with interrupts := { s.interrupts with log := true } }

end Sys2Proof.Machine
end

