-- ==== Sys2Proof/Decode.lean ====
section
/-! DEFINITION. The command a word spells, and the command codes of R177. -/

namespace Sys2Proof

/-- The command that a word spells by the bits of spec/opcode_table.json. No row of the table gives
bits ("fields" is empty in each), so no word spells a command. -/
def decodeTableWord (_nbits _w : Nat) : Option Instr := none

/-- The code the host writes to COMMAND for each host command (R177). -/
def hostCommandCode : HostCommand → BitVec 8
  | .bind => 0x01
  | .unbind => 0x02
  | .start => 0x03
  | .halt => 0x04
  | .continueChannel => 0x05
  | .abort => 0x06
  | .clearFault => 0x07
  | .readChannel => 0x08
  | .loadMap => 0x10
  | .writeEntry => 0x11
  | .readEntry => 0x12
  | .probe => 0x13
  | .setLog => 0x20
  | .logStop => 0x21
  | .logConsumed => 0x22

/-- The fifteen host commands, in the order of their codes. -/
def hostCommands : List HostCommand :=
  [.bind, .unbind, .start, .halt, .continueChannel, .abort, .clearFault, .readChannel,
   .loadMap, .writeEntry, .readEntry, .probe, .setLog, .logStop, .logConsumed]

/-- The host command with a given code; `none` for an unknown code (R165 stage 1). -/
def hostCommandOfCode (code : BitVec 8) : Option HostCommand :=
  hostCommands.find? fun c => hostCommandCode c == code

/-- The command code is the low eight bits of the word written to COMMAND (R163). -/
def writtenCode (w : Word) : BitVec 8 := w.setWidth 8

end Sys2Proof
end

