-- ==== Sys2Proof/Machine/Formats.lean ====
section
/-! DEFINITION. The numeric codes (R50, R131, R166, R177) and the layouts of the words that the part reads,
writes and shows: descriptors (R179), map images (R180), fault records (R181) and event records
(R182). -/

namespace Sys2Proof.Machine

/-! ### Codes -/

/-- The code of a channel state (R177). -/
def ChannelState.code : ChannelState → BitVec 4
  | .disabled => 0
  | .idle => 1
  | .fetching => 2
  | .running => 3
  | .settling _ => 4
  | .holding => 5
  | .halting => 6
  | .halted => 7
  | .aborting => 8
  | .faulted => 9

/-- The code of an event kind; 0 is kept for an empty queue or slot (R112). -/
def EventKind.code : EventKind → BitVec 4
  | .done => 1
  | .short => 2
  | .chainEnd => 3
  | .held => 4
  | .halted => 5
  | .aborted => 6

/-- The code of a fault kind (R131). -/
def FaultKind.code : FaultKind → BitVec 8
  | .pageInvalid => 1
  | .pageBeyond => 2
  | .readDenied => 3
  | .writeDenied => 4
  | .descFormat => 5
  | .chainLimit => 6
  | .busError => 7
  | .stallTimeout => 8
  | .periphFail => 9
  | .linkProtocol => 10

/-- LOG-OVERFLOW, the kind of the overflow record alone (R131, R144). -/
def logOverflowCode : BitVec 8 := 15

/-- The code of a result (R166). -/
def ResultCode.code : ResultCode → BitVec 4
  | .ok => 0
  | .badCommand => 1
  | .badOperand => 2
  | .badState => 3
  | .busError => 4
  | .underrun => 5
  | .faultPending => 6

/-- The code of a log state (R177). -/
def LogState.code : LogState → BitVec 2
  | .off => 0
  | .running => 1
  | .full => 2
  | .error => 3

/-- The request code on the two request-code lines of a slot (R50). -/
def LinkRequest.code : LinkRequest → BitVec 2
  | .offer _ => 0
  | .ask => 1
  | .endBlock => 2
  | .fail => 3

/-- The word that the peripheral drives on the link data lines with its request: only an OFFER has one
(R50). -/
def LinkRequest.data : LinkRequest → Option Word
  | .offer w => some w
  | _ => none

/-- The request that a request code and the word on the link data lines spell (R50). -/
def linkRequestOfLines (code : BitVec 2) (data : Word) : LinkRequest :=
  match code.toNat with
  | 0 => .offer data
  | 1 => .ask
  | 2 => .endBlock
  | _ => .fail

/-- The row of a link request on slot `n`. -/
def requestInstr (n : ChannelNo) : LinkRequest → Instr
  | .offer w => .offer n w
  | .ask => .ask n
  | .endBlock => .endBlock n
  | .fail => .fail n

/-- The command that comes about where request valid of slot `n` rises, or FAIL is presented, with `code`
and `data` on the lines (R50, R51). -/
def commandOfLines (n : ChannelNo) (code : BitVec 2) (data : Word) : Instr :=
  requestInstr n (linkRequestOfLines code data)

/-- The answer code on the two answer-code lines of a slot (R50). -/
def Answer.code : Answer → BitVec 2
  | .take => 0
  | .give _ => 1
  | .refuse => 2
  | .ack => 3

/-- The word that the part drives on the link data lines with its answer: only a GIVE has one (R50). -/
def Answer.data : Answer → Option Word
  | .give w => some w
  | _ => none

/-- The answer that stands on a slot: the one last driven, while answer valid is raised (R50). -/
def Slot.standingAnswer (l : Slot) : Option Answer := if l.answerValid then l.answer else none

/-- What the part shows on the answer-code lines of a slot while answer valid is raised (R50). -/
def Slot.answerCode (l : Slot) : Option (BitVec 2) := l.standingAnswer.map Answer.code

/-- The word that the part drives on the link data lines of a slot while answer valid is raised (R50). -/
def Slot.answerData (l : Slot) : Option Word := l.standingAnswer.bind Answer.data

/-- The fault kind a held record shows (R12). -/
def HeldFault.kind : HeldFault → FaultKind
  | .unlogged r => r.kind
  | .logged k => k

/-! ### Fields of a word -/

/-- A word that is 0 but for `x` placed with its bit 0 at bit `low`. -/
def field (x : BitVec w) (low : Nat) : Word := x.setWidth 32 <<< low

/-- A word that is 0 but for one bit. -/
def bitField (b : Bool) (low : Nat) : Word := field (BitVec.ofBool b) low

/-! ### Descriptors (R179) -/

/-- The direction of code bits 15–14 of word 0; 00 and 11 are not directions (R179). -/
def directionOfCode (x : BitVec 2) : Option Direction :=
  match x.toNat with
  | 1 => some .inbound
  | 2 => some .outbound
  | _ => none

/-- Whether a link field fails the range check, having a bit set above bit 23 (R36). -/
def linkOutOfRange (w : Word) : Bool := w.extractLsb' 24 8 != 0

/-- Whether a bit of word 0 or word 1 that carries no field is set (R36). -/
def unusedBitsSet (w0 w1 : Word) : Bool := w0.extractLsb' 4 10 != 0 || w1.extractLsb' 18 14 != 0

/-- The contents of a link-only descriptor, or `none` where validation fails (R30, R36). Direction,
ALT, HOLD, NOTIFY and word 3 are not looked at. -/
def linkOnlyContents (w0 w1 w2 : Word) : Option Contents :=
  if unusedBitsSet w0 w1 || w0.getLsbD 3 || linkOutOfRange w2 then none
  else some (.linkOnly (w2.setWidth 24))

/-- The contents of a transfer descriptor, or `none` where validation fails (R30, R36). Word 2 is looked
at only where LAST is clear, and word 3 only where ALT is set. -/
def transferContents (w0 w1 w2 w3 : Word) : Option Contents :=
  match directionOfCode (w0.extractLsb' 14 2) with
  | none => none
  | some dir =>
    let last := w0.getLsbD 3
    let alt := w0.getLsbD 2
    if unusedBitsSet w0 w1 || (!last && linkOutOfRange w2) || (alt && linkOutOfRange w3) then none
    else some (.transfer
      { count := w0.extractLsb' 16 16
        direction := dir
        start := w1.setWidth 18
        notify := w0.getLsbD 0
        hold := w0.getLsbD 1
        link := if last then none else some (w2.setWidth 24)
        altLink := if alt then some (w3.setWidth 24) else none })

/-- Validation of the four fetched words (R36). A descriptor with a count of 0 is link-only (R30). A
list that is not four words long, which no fetch gives, is not valid (log entry 13). -/
def validateDescriptor : List Word → Option Contents
  | [w0, w1, w2, w3] =>
    if w0.extractLsb' 16 16 = 0 then linkOnlyContents w0 w1 w2 else transferContents w0 w1 w2 w3
  | _ => none

/-! ### Map images (R180) -/

/-- The entry that an image word gives, its indicators clear (R74, R86, R90). -/
def entryOfImage (w : Word) : PageEntry where
  valid := w.getLsbD 31
  read := w.getLsbD 30
  write := w.getLsbD 29
  frame := w.setWidth 12
  referenced := false
  modified := false

/-- The word in which READ ENTRY returns an entry, with its indicators (R93, R180). -/
def imageOfEntry (e : PageEntry) : Word :=
  bitField e.valid 31 ||| bitField e.read 30 ||| bitField e.write 29 |||
    bitField e.referenced 28 ||| bitField e.modified 27 ||| field e.frame 0

/-! ### Event records (R182) -/

/-- Word 0 of an event record: kind, channel and descriptor address. -/
def EventRecord.word0 (r : EventRecord) : Word :=
  field r.kind.code 28 ||| field (BitVec.ofFin (w := 4) r.channel) 24 ||| field r.descAddr 0

/-- Word 1 of an event record: tick stamp and words done. -/
def EventRecord.word1 (r : EventRecord) : Word := field r.stamp 16 ||| field r.wordsDone 0

/-! ### Fault and overflow records (R181) -/

/-- Word `k` of a record in the layout of R181. -/
def logWord (sequence : BitVec 16) (kind : BitVec 8) (channel : ChannelNo) (descAddr : PhysAddr)
    (logical : LogAddr) (stamp wordsDone : BitVec 16) (k : BitVec 2) : Word :=
  match k.toNat with
  | 0 => field sequence 16 ||| field kind 8 ||| field (BitVec.ofFin (w := 4) channel) 4
  | 1 => field descAddr 0
  | 2 => field logical 0
  | _ => field stamp 16 ||| field wordsDone 0

/-- Word `k` of a fault record that carries `sequence`. -/
def FaultRecord.word (r : FaultRecord) (sequence : BitVec 16) (k : BitVec 2) : Word :=
  logWord sequence r.kind.code r.channel r.descAddr r.logical r.stamp r.wordsDone k

/-- Word `k` of an overflow record that carries `sequence` (R144). -/
def OverflowRecord.word (r : OverflowRecord) (sequence : BitVec 16) (k : BitVec 2) : Word :=
  logWord sequence logOverflowCode r.channel r.descAddr r.logical r.stamp r.waiting k

end Sys2Proof.Machine
end

