-- ==== Sys2Proof/Machine/Ops.lean ====
section
/-! DEFINITION. The operations that the commands share: access to the records, answers on a slot, the
completion of a host command, posting an event, entering FAULTED, following a link, and the settling
sequence. -/

namespace Sys2Proof.Machine

/-! ### Access -/

/-- All channel numbers, in slot order. -/
def channelNumbers : List ChannelNo := [0, 1, 2, 3, 4, 5, 6, 7, 8, 9, 10, 11, 12, 13, 14, 15]

/-- The record of channel `n`. -/
def State.channel (s : State) (n : ChannelNo) : Channel := s.channels[n.val]

/-- The pins of slot `n`. -/
def State.slot (s : State) (n : ChannelNo) : Slot := s.slots[n.val]

/-- Map set `m`. -/
def State.mapSet (s : State) (m : SetNo) : MapSet := s.sets[m.val]

/-- Replaces the record of channel `n`. -/
def State.putChannel (s : State) (n : ChannelNo) (c : Channel) : State :=
  { s with channels := s.channels.set n.val c }

/-- Replaces the pins of slot `n`. -/
def State.putSlot (s : State) (n : ChannelNo) (l : Slot) : State :=
  { s with slots := s.slots.set n.val l }

/-- Replaces map set `m`. -/
def State.putSet (s : State) (m : SetNo) (x : MapSet) : State :=
  { s with sets := s.sets.set m.val x }

/-- Applies `f` to every element of a table. -/
def mapTable (f : α → β) (v : Vector α k) : Vector β k := ⟨(v.toList.map f).toArray, by simp⟩

/-! ### The transaction in flight, as a channel sees it -/

/-- The channel that requested a transaction (R96). -/
def Purpose.requester : Purpose → Option ChannelNo
  | .mapRead => none
  | .logWrite _ => none
  | .descRead n => some n
  | .dataRead n _ _ => some n
  | .dataWrite n _ _ _ => some n

/-- The map set and page in a data transaction's record (R96). -/
def Purpose.through : Purpose → Option (SetNo × PageNo)
  | .dataRead _ m p => some (m, p)
  | .dataWrite _ m p _ => some (m, p)
  | _ => none

/-- Whether a transaction of channel `n` is in flight. An orphan has been taken away from its requester
(R110), and a DISCARD transaction is still one the channel waits for (R19, R25, R106; DEDUCED, unsafe,
log entry 8). So does a channel that left FAULTED, was started again and then takes HALT or ABORT while
its old DISCARD transaction is in flight: R106 says that it takes no notice of that end, R19 and R25 that
it waits for it, and the model waits (DESIGN CHOICE, unsafe, log entry 21). -/
def State.channelInFlight (s : State) (n : ChannelNo) : Bool :=
  match s.port.inFlight with
  | none => false
  | some t => t.purpose.requester == some n && t.delivery != .orphan

/-- The channel's transaction in flight, if it would be delivered, becomes DISCARD (R96). -/
def discardTransaction (n : ChannelNo) (s : State) : State :=
  match s.port.inFlight with
  | none => s
  | some t =>
    if t.purpose.requester = some n ∧ t.delivery = .deliver then
      { s with port := { s.port with inFlight := some { t with delivery := .discard } } }
    else s

/-! ### Answers on a slot (R50) -/

/-- The request outstanding of channel `n` is answered with `a`: it is removed from the record, and
answer valid is raised, or falls on this same event where request valid is already low (R50). -/
def answerRequest (n : ChannelNo) (a : Answer) (s : State) : State :=
  let c := s.channel n
  let l := s.slot n
  (s.putChannel n { c with request := none }).putSlot n
    { l with answer := some a, answerValid := l.lines.isSome }

/-- The answer of a state that turns requests away: REFUSE to OFFER and ASK, ACK to END and FAIL (R53,
R54). -/
def turnAwayAnswer : LinkRequest → Answer
  | .offer _ => .refuse
  | .ask => .refuse
  | .endBlock => .ack
  | .fail => .ack

/-- The request outstanding of channel `n`, if there is one, is turned away (R11, R24, R53, R54). -/
def turnAway (n : ChannelNo) (s : State) : State :=
  match (s.channel n).request with
  | none => s
  | some r => answerRequest n (turnAwayAnswer r) s

/-! ### Completion of a host command (R166) -/

/-- The command in progress completes with `r`: the port becomes IDLE and COMMAND latches (R166). -/
def completeCommand (r : ResultCode) (s : State) : State :=
  latchCommand { s with command := { s.command with inProgress := none, lastResult := r } }

/-- The command in progress completes with `r` if it is `cmd` on channel `n`. -/
def completeChannelCommand (cmd : HostCommand) (n : ChannelNo) (r : ResultCode) (s : State) :
    State :=
  match s.command.inProgress with
  | none => s
  | some l => if l.command = cmd ∧ l.a.toNat = n.val then completeCommand r s else s

/-! ### Posting (R9, R115) -/

/-- The event record that channel `n` posts (R9, R112). -/
def eventRecord (s : State) (n : ChannelNo) (k : EventKind) (wordsDone : BitVec 16) : EventRecord where
  kind := k
  channel := n
  descAddr := (s.channel n).descAddr
  wordsDone := wordsDone
  stamp := s.timer.tickCount

/-- Channel `n` makes a post: the record joins the tail of the queue, or becomes the channel's pending
event where the queue is full (R9, R115). A post to an empty queue sets the head age to 0 (R123). -/
def makePost (n : ChannelNo) (k : EventKind) (wordsDone : BitVec 16) (s : State) : State :=
  let r := eventRecord s n k wordsDone
  let q := s.queue
  if q.records.length < Config.queueDepth then
    { s with queue := { q with
        records := q.records ++ [r]
        headAge := if q.records.isEmpty then 0 else q.headAge } }
  else
    { s.putChannel n { s.channel n with pendingEvent := some r } with
      queue := { q with waitList := q.waitList ++ [n] } }

/-! ### Faults (R11, R132) -/

/-- The words done of a transfer descriptor: memory count for INBOUND, exchanged for OUTBOUND (R1). -/
def Channel.transferWordsDone (c : Channel) (d : Transfer) : BitVec 16 :=
  match d.direction with
  | .inbound => c.memoryCount
  | .outbound => c.exchanged

/-- The logical address of the next word to be written or read: the logical start address plus the
memory count (R31, R58, R61). -/
def Channel.nextLogical (c : Channel) (d : Transfer) : LogAddr :=
  d.start.setWidth 19 + c.memoryCount.setWidth 19

/-- The fault record of channel `n`, from its own fields as they stand (R132). -/
def faultRecord (s : State) (n : ChannelNo) (k : FaultKind) : FaultRecord :=
  let c := s.channel n
  match c.contents with
  | some (.transfer d) =>
    { kind := k, channel := n, descAddr := c.descAddr, logical := c.nextLogical d,
      wordsDone := c.transferWordsDone d, stamp := s.timer.tickCount }
  | _ =>
    { kind := k, channel := n, descAddr := c.descAddr, logical := 0,
      wordsDone := c.exchanged, stamp := s.timer.tickCount }

/-- The record of a channel as it stands in FAULTED with the unlogged record `r` (R1, R11). -/
def Channel.toFaulted (c : Channel) (r : FaultRecord) : Channel :=
  { c with
    state := .faulted
    fetched := []
    resume := none
    staging := []
    fault := some (.unlogged r) }

/-- Channel `n` enters FAULTED with kind `k` (R11): a standing request is turned away, the staging queue
is emptied, a transaction in flight becomes DISCARD, the fault record is formed and joins the fault
order list, and FAULT latches. A HALT in progress on the channel completes with BAD-STATE (R19). -/
def enterFaulted (n : ChannelNo) (k : FaultKind) (s : State) : State :=
  let r := faultRecord s n k
  let halting := (s.channel n).state == .halting
  let s1 := discardTransaction n (turnAway n s)
  let s2 := s1.putChannel n ((s1.channel n).toFaulted r)
  let s3 := latchFault { s2 with log := { s2.log with faultOrder := s2.log.faultOrder ++ [n] } }
  if halting then completeChannelCommand .halt n .badState s3 else s3

/-! ### Fetching and links (R5, R39) -/

/-- Channel `n` enters FETCHING at `addr`: fetch progress becomes 0 and the descriptor contents and the
fetched words are dropped (R1, R5). -/
def enterFetching (n : ChannelNo) (addr : PhysAddr) (s : State) : State :=
  s.putChannel n { s.channel n with
    state := .fetching
    descAddr := addr
    fetchProgress := 0
    fetched := []
    contents := none }

/-- A physical address is a multiple of 4. -/
def aligned4 (a : PhysAddr) : Bool := a.extractLsb' 0 2 == 0

/-- Channel `n` follows a link. An unaligned one becomes the descriptor address before the channel
faults with DESC-FORMAT (R39). -/
def followLink (n : ChannelNo) (addr : PhysAddr) (s : State) : State :=
  if aligned4 addr then enterFetching n addr s
  else enterFaulted n .descFormat (s.putChannel n { s.channel n with descAddr := addr })

/-! ### The settling sequence (R41 to R45) -/

/-- Channel `n` stays in SETTLING at `step`, its post waiting for the pending-event slot (R41). -/
def waitAtStep (n : ChannelNo) (step : SettlingStep) (s : State) : State :=
  s.putChannel n { s.channel n with state := .settling step }

/-- The end of the chain: CHAIN-END is posted and the channel enters IDLE (R45). -/
def endChain (n : ChannelNo) (wordsDone : BitVec 16) (s : State) : State :=
  let s1 := makePost n .chainEnd wordsDone s
  s1.putChannel n { s1.channel n with
    state := .idle
    fetchProgress := 0
    fetched := []
    contents := none }

/-- Step SELECT (R44, R45). -/
def settleSelect (n : ChannelNo) (d : Transfer) (s : State) : State :=
  let c := s.channel n
  match (if c.short then d.altLink else none) with
  | some addr => followLink n addr s
  | none =>
    match d.link with
    | some addr => followLink n addr s
    | none =>
      if c.pendingEvent.isSome then waitAtStep n .select s
      else endChain n (c.transferWordsDone d) s

/-- Step HOLD (R43). -/
def settleHold (n : ChannelNo) (d : Transfer) (s : State) : State :=
  let c := s.channel n
  if d.hold then
    if c.pendingEvent.isSome then waitAtStep n .hold s
    else
      let s1 := makePost n .held (c.transferWordsDone d) s
      s1.putChannel n { s1.channel n with state := .holding }
  else settleSelect n d s

/-- The event that step REPORT posts, if any (R42). -/
def reportKind (short notify : Bool) : Option EventKind :=
  if short then some .short else if notify then some .done else none

/-- Step REPORT (R42). -/
def settleReport (n : ChannelNo) (d : Transfer) (s : State) : State :=
  let c := s.channel n
  match reportKind c.short d.notify with
  | none => settleHold n d s
  | some k =>
    if c.pendingEvent.isSome then waitAtStep n .report s
    else settleHold n d (makePost n k (c.transferWordsDone d) s)

/-- Channel `n` carries out the settling sequence from `step` (R41). -/
def settleFrom (n : ChannelNo) (step : SettlingStep) (d : Transfer) (s : State) : State :=
  match step with
  | .report => settleReport n d s
  | .hold => settleHold n d s
  | .select => settleSelect n d s

/-! ### Channel transitions that come about on an event -/

/-- The completion condition of RUNNING (R69). -/
def completionHolds (c : Channel) (d : Transfer) (inFlight : Bool) : Bool :=
  !inFlight &&
    match d.direction with
    | .inbound => c.memoryCount == d.count || (c.short && c.staging.isEmpty)
    | .outbound => c.exchanged == d.count || c.short

/-- The block whose completion takes channel `n` to SETTLING now, if there is one (R69). -/
def completedBlock (s : State) (n : ChannelNo) : Option Transfer :=
  let c := s.channel n
  match c.state, c.contents with
  | .running, some (.transfer d) =>
    if completionHolds c d (s.channelInFlight n) then some d else none
  | _, _ => none

/-- A RUNNING channel whose completion condition holds carries out the settling sequence (R69). -/
def completeBlock (n : ChannelNo) (s : State) : State :=
  match completedBlock s n with
  | none => s
  | some d => settleReport n d s

/-- The step and the descriptor at which channel `n` stands in SETTLING with its pending-event slot
empty (R41). -/
def resumedStep (s : State) (n : ChannelNo) : Option (SettlingStep × Transfer) :=
  let c := s.channel n
  match c.state, c.contents, c.pendingEvent with
  | .settling step, some (.transfer d), none => some (step, d)
  | _, _, _ => none

/-- A channel that waited in SETTLING goes on once its slot is empty (R10, R41). -/
def resumeSettling (n : ChannelNo) (s : State) : State :=
  match resumedStep s n with
  | none => s
  | some (step, d) => settleFrom n step d s

/-- Nothing holds channel `n` in HALTING any longer (R19). -/
def leaveHaltingDue (s : State) (n : ChannelNo) : Bool :=
  let c := s.channel n
  c.state == .halting && !s.channelInFlight n && c.pendingEvent.isNone

/-- The words done of a HALTED record: 0 where the resume state is FETCHING (R19). -/
def haltedWordsDone (c : Channel) : BitVec 16 :=
  match c.resume, c.contents with
  | some .running, some (.transfer d) => c.transferWordsDone d
  | _, _ => 0

/-- A channel with nothing left to wait for leaves HALTING: it posts HALTED, enters HALTED, and HALT
completes with OK (R19). -/
def leaveHalting (n : ChannelNo) (s : State) : State :=
  if leaveHaltingDue s n then
    let s1 := makePost n .halted (haltedWordsDone (s.channel n)) s
    completeChannelCommand .halt n .ok (s1.putChannel n { s1.channel n with state := .halted })
  else s

/-- Nothing holds channel `n` in ABORTING any longer (R25). -/
def leaveAbortingDue (s : State) (n : ChannelNo) : Bool :=
  let c := s.channel n
  c.state == .aborting && !s.channelInFlight n && c.pendingEvent.isNone

/-- A channel with nothing in flight leaves ABORTING: it posts ABORTED, enters IDLE, and ABORT completes
with OK (R25). -/
def leaveAborting (n : ChannelNo) (s : State) : State :=
  if leaveAbortingDue s n then
    let s1 := makePost n .aborted ((s.channel n).abortWordsDone.getD 0) s
    completeChannelCommand .abort n .ok (s1.putChannel n { s1.channel n with
      state := .idle
      abortWordsDone := none
      short := false
      stallCounter := 0 })
  else s

end Sys2Proof.Machine
end

