-- ==== Sys2Proof/Machine/LinkOps.lean ====
section
/-! DEFINITION. How a request standing on a slot is met in each channel state (R51 to R54, R57, R63 to
R68), how one arrives (R50), and what a channel does at the end of an event that reached it. -/

namespace Sys2Proof.Machine

/-! ### Requests met in RUNNING -/

/-- An INBOUND channel takes the word of an OFFER (R57). -/
def canTake (c : Channel) (d : Transfer) : Bool :=
  decide (c.exchanged < d.count) && !c.short && decide (c.staging.length < Config.stagingDepth)

/-- A word is taken: it joins the staging queue, exchanged rises and the stall counter becomes 0 (R57). -/
def takeWord (n : ChannelNo) (w : Word) (s : State) : State :=
  let s1 := answerRequest n .take s
  let c := s1.channel n
  s1.putChannel n { c with
    staging := c.staging ++ [w]
    exchanged := c.exchanged + 1
    stallCounter := 0 }

/-- A word is given: it leaves the staging queue, exchanged rises and the stall counter becomes 0 (R63). -/
def giveWord (n : ChannelNo) (w : Word) (rest : List Word) (s : State) : State :=
  let s1 := answerRequest n (.give w) s
  let c := s1.channel n
  s1.putChannel n { c with
    staging := rest
    exchanged := c.exchanged + 1
    stallCounter := 0 }

/-- An END met in RUNNING ends the block short: exchanged is below the count and the short flag is clear
(R66, R67). -/
def endsShort (c : Channel) (d : Transfer) : Bool := decide (c.exchanged < d.count) && !c.short

/-- An END is met in RUNNING: it is acknowledged (R65), and where it ends the block short it sets the
short flag (R66) and, for OUTBOUND, empties the staging queue and abandons a read in flight (R67). -/
def meetEnd (n : ChannelNo) (d : Transfer) (s : State) : State :=
  let s1 := answerRequest n .ack s
  let c := s1.channel n
  if endsShort c d then
    match d.direction with
    | .inbound => s1.putChannel n { c with short := true }
    | .outbound => discardTransaction n (s1.putChannel n { c with short := true, staging := [] })
  else s1

/-- A request is met in RUNNING on the descriptor `d` (R57, R63, R64, R65, R68). -/
def meetInRunning (n : ChannelNo) (d : Transfer) (r : LinkRequest) (s : State) : State :=
  let c := s.channel n
  match r, d.direction with
  | .offer w, .inbound => if canTake c d then takeWord n w s else s
  | .offer _, .outbound => enterFaulted n .linkProtocol s
  | .ask, .inbound => enterFaulted n .linkProtocol s
  | .ask, .outbound =>
    match c.staging with
    | [] => s
    | w :: rest => giveWord n w rest s
  | .endBlock, _ => meetEnd n d s
  | .fail, _ => enterFaulted n .periphFail s

/-- A request is met in a state that holds requests waiting: only a FAIL is answered, and it faults the
channel (R53, R54, R68). -/
def meetWhileWaiting (n : ChannelNo) (r : LinkRequest) (s : State) : State :=
  match r with
  | .fail => enterFaulted n .periphFail s
  | _ => s

/-- The request standing on slot `n`, if there is one, is met as the channel's state gives (R52, R53,
R54, R68). -/
def meetRequest (n : ChannelNo) (s : State) : State :=
  let c := s.channel n
  match c.request with
  | none => s
  | some r =>
    match c.state with
    | .disabled | .idle | .aborting | .faulted => turnAway n s
    | .fetching | .settling _ | .holding | .halting | .halted => meetWhileWaiting n r s
    | .running =>
      match c.contents with
      | some (.transfer d) => meetInRunning n d r s
      | _ => meetWhileWaiting n r s

/-! ### The end of an event, at a channel -/

/-- What channel `n` does on an event that reached it, after the event's own effect: it goes on in
SETTLING where its slot has emptied (R10, R41), leaves HALTING or ABORTING where nothing holds it (R19,
R25), enters SETTLING where its block is complete (R69), and meets the request standing on its slot
(R52), which can complete the block in turn. On CONTINUE into RUNNING the completion condition is
looked at before the standing request is met (R7, R22; DEDUCED, unsafe, log entry 6). -/
def carryOn (n : ChannelNo) (s : State) : State :=
  let s1 := leaveAborting n (leaveHalting n (resumeSettling n s))
  let s2 := meetRequest n (completeBlock n s1)
  meetRequest n (completeBlock n s2)

/-! ### Arrival (R50, R51) -/

/-- `r` becomes the request outstanding of channel `n` and is met (R50). -/
def present (n : ChannelNo) (r : LinkRequest) (s : State) : State :=
  carryOn n (s.putChannel n { s.channel n with request := some r })

/-- The lines of slot `n` carry `r` with request valid raised. -/
def raiseLines (n : ChannelNo) (r : LinkRequest) (s : State) : State :=
  s.putSlot n { s.slot n with lines := some r }

/-- A request presented while answer valid is raised is kept until it falls (R50; DEDUCED, unsafe, log
entry 9). -/
def keepEarly (n : ChannelNo) (r : LinkRequest) (s : State) : State :=
  let l := s.slot n
  s.putSlot n { l with early := if r = .fail then some r else l.early.or (some r) }

/-- OFFER, ASK or END is presented on slot `n`. While a request stands, a rise of request valid presents
nothing new (R50). -/
def arrive (n : ChannelNo) (r : LinkRequest) (s : State) : State :=
  if (s.slot n).answerValid then keepEarly n r s
  else if (s.channel n).request.isSome then raiseLines n r s
  else present n r (raiseLines n r s)

/-- FAIL is presented on slot `n`: it withdraws a standing request without an answer (R51). -/
def arriveFail (n : ChannelNo) (s : State) : State :=
  if (s.slot n).answerValid then keepEarly n .fail s
  else present n .fail (raiseLines n .fail s)

/-- Request valid of slot `n` falls. Before the answer the request goes on standing. After it, answer
valid falls, and a request kept until then arrives (R50). -/
def lowerRequestValid (n : ChannelNo) (s : State) : State :=
  let l := s.slot n
  if l.answerValid then
    match l.early with
    | none => s.putSlot n { l with lines := none, answerValid := false }
    | some r =>
      present n r (s.putSlot n { l with lines := some r, answerValid := false, early := none })
  else s.putSlot n { l with lines := none }

end Sys2Proof.Machine
end

