-- ==== Sys2Proof/Machine/LogOps.lean ====
section
/-! DEFINITION. The fault-log writer: beginning a record (R137, R144), its words (R137, R181), its ending
(R140, R144, R145) and the end of a waiting LOG STOP (R148). -/

namespace Sys2Proof.Machine

/-- A LOG STOP waits (R148). -/
def logStopWaits (s : State) : Bool :=
  match s.command.inProgress with
  | none => false
  | some l => l.command == .logStop

/-- The channel for which the writer begins a ring record now, if there is one (R137). -/
def ringRecordDue (s : State) : Option ChannelNo :=
  if s.log.state == .running && s.log.underWay.isNone && decide (s.log.unconsumed < s.log.capacity)
      && !logStopWaits s then s.log.faultOrder.head?
  else none

/-- The writer begins a ring record for the head of the fault order list in slot W (R137). -/
def beginRingRecord (s : State) : State :=
  match ringRecordDue s with
  | none => s
  | some n =>
    let u : UnderWay :=
      { target := .channel n, slot := s.log.writeIndex.setWidth 11, written := 0 }
    { s with log := { s.log with underWay := some u } }

/-- The channel that the overflow record names, where the writer begins it now (R144). -/
def overflowRecordDue (s : State) : Option ChannelNo :=
  if s.log.state == .running && s.log.underWay.isNone && s.log.unconsumed == s.log.capacity
      && !logStopWaits s then s.log.faultOrder.head?
  else none

/-- The overflow record for the channel `n`, with its fields as they stand (R144). A channel at the head
of the list holds an unlogged record; one that does not (no run reaches it) gives 0 (log entry 13). -/
def overflowRecord (s : State) (n : ChannelNo) : OverflowRecord :=
  let waiting := BitVec.ofNat 16 s.log.faultOrder.length
  match (s.channel n).fault with
  | some (.unlogged r) =>
    { channel := n, descAddr := r.descAddr, logical := r.logical, waiting := waiting,
      stamp := s.timer.tickCount }
  | _ =>
    { channel := n, descAddr := 0, logical := 0, waiting := waiting, stamp := s.timer.tickCount }

/-- The writer begins the overflow record in the reserve slot (R144). -/
def beginOverflowRecord (s : State) : State :=
  match overflowRecordDue s with
  | none => s
  | some n =>
    let u : UnderWay :=
      { target := .overflow (overflowRecord s n), slot := s.log.capacity, written := 0 }
    { s with log := { s.log with underWay := some u } }

/-- Which word of the record comes next: words go in the order 1, 2, 3, 0 (R137). -/
def nextLogWord (written : BitVec 2) : BitVec 2 := written + 1

/-- Word `k` of the record under way, taken at its grant (R137, R144). A ring record is taken from the
channel's unlogged fault record. -/
def underWayWord (s : State) (u : UnderWay) (k : BitVec 2) : Option Word :=
  match u.target with
  | .overflow r => some (r.word s.log.nextSequence k)
  | .channel n =>
    match (s.channel n).fault with
    | some (.unlogged r) => some (r.word s.log.nextSequence k)
    | _ => none

/-- The address of word `k` of a slot: B + 4 × slot + k (R134). -/
def logAddress (base : PhysAddr) (slot : BitVec 11) (k : BitVec 2) : PhysAddr :=
  base + (slot.setWidth 24 <<< 2) + k.setWidth 24

/-- The LOG-WRITE request the writer presents (R135, R137). -/
def logRequest (s : State) : Option (PhysAddr × Word) :=
  match s.log.underWay with
  | none => none
  | some u =>
    let k := nextLogWord u.written
    (underWayWord s u k).map fun w => (logAddress s.log.base u.slot k, w)

/-- The sequence number after `x`; 0 is never used (R139). -/
def nextSequenceAfter (x : BitVec 16) : BitVec 16 := if x = 65535 then 1 else x + 1

/-- The write index after W in a ring of C slots (R140). -/
def nextWriteIndex (w : BitVec 10) (c : BitVec 11) : BitVec 10 :=
  BitVec.ofNat 10 ((w.toNat + 1) % c.toNat)

/-- The fault record of channel `n` becomes logged (R12, R140). -/
def markLogged (n : ChannelNo) (s : State) : State :=
  match (s.channel n).fault with
  | some (.unlogged r) => s.putChannel n { s.channel n with fault := some (.logged r.kind) }
  | _ => s

/-- Word 0 of a ring record for channel `n` completes OK (R140). -/
def finishRingRecord (n : ChannelNo) (s : State) : State :=
  let s1 := markLogged n s
  { s1 with log := { s1.log with
      writeIndex := nextWriteIndex s1.log.writeIndex s1.log.capacity
      unconsumed := s1.log.unconsumed + 1
      nextSequence := nextSequenceAfter s1.log.nextSequence
      underWay := none
      faultOrder := s1.log.faultOrder.erase n } }

/-- Word 0 of the overflow record completes OK: the log enters FULL if U equals C (R144). -/
def finishOverflowRecord (s : State) : State :=
  let s1 := { s with log := { s.log with
      nextSequence := nextSequenceAfter s.log.nextSequence
      underWay := none } }
  if s1.log.unconsumed = s1.log.capacity then
    latchLog { s1 with log := { s1.log with state := .full } }
  else s1

/-- A word of the record under way completes OK (R138). -/
def logWordDone (u : UnderWay) (s : State) : State :=
  if u.written = 3 then
    match u.target with
    | .channel n => finishRingRecord n s
    | .overflow _ => finishOverflowRecord s
  else
    { s with log := { s.log with underWay := some { u with written := u.written + 1 } } }

/-- A word of the record under way completes with BUS-ERROR: the record is abandoned, the log enters
ERROR and LOG latches (R145). -/
def abandonRecord (s : State) : State :=
  latchLog { s with log := { s.log with underWay := none, state := .error } }

/-- A waiting LOG STOP has no record left to wait for (R148). -/
def logStopDue (s : State) : Bool := logStopWaits s && s.log.underWay.isNone

/-- The log enters OFF and LOG STOP completes with `r` (R148). -/
def stopLog (r : ResultCode) (s : State) : State :=
  completeCommand r { s with log := { s.log with state := .off } }

/-- A waiting LOG STOP completes once the record under way has ended: with BUS-ERROR where the record was
abandoned, which left the log in ERROR, and with OK otherwise (R148). -/
def endLogStop (s : State) : State :=
  if logStopDue s then stopLog (if s.log.state = .error then .busError else .ok) s else s

/-- What the log writer does at the end of an event (R137, R144, R148). -/
def logWork (s : State) : State := beginOverflowRecord (beginRingRecord (endLogStop s))

end Sys2Proof.Machine
end

