-- ==== Sys2Proof/Machine/MapOps.lean ====
section
/-! DEFINITION. The map store: translation (R78), the indicators (R81, R82), the loader (R84 to R88) and
the rewriting of one entry (R90, R91). -/

namespace Sys2Proof.Machine

/-! ### Entries -/

/-- The entry of page `p`. -/
def MapSet.entry (x : MapSet) (p : PageNo) : PageEntry := x.entries[p.val]

/-- Replaces the entry of page `p`. -/
def MapSet.putEntry (x : MapSet) (p : PageNo) (e : PageEntry) : MapSet :=
  { x with entries := x.entries.set p.val e }

/-- Applies `f` to the entry of page `p` of set `m`. -/
def updateEntry (m : SetNo) (p : PageNo) (f : PageEntry → PageEntry) (s : State) : State :=
  let x := s.mapSet m
  s.putSet m (x.putEntry p (f (x.entry p)))

/-- REFERENCED of page `p` of set `m` is set (R81). -/
def setReferenced (m : SetNo) (p : PageNo) (s : State) : State :=
  updateEntry m p (fun e => { e with referenced := true }) s

/-- MODIFIED of page `p` of set `m` is set (R82). -/
def setModified (m : SetNo) (p : PageNo) (s : State) : State :=
  updateEntry m p (fun e => { e with modified := true }) s

/-- All entries cleared (R75, R85, R88). -/
def clearedEntries : Vector PageEntry 64 := Vector.replicate 64 PageEntry.cleared

/-! ### Translation (R78) -/

/-- The outcome of a translation. -/
inductive Translation where
  /-- Every check passes: the page and the physical address. -/
  | passes (page : PageNo) (addr : PhysAddr)
  /-- The kind of the first check that fails. -/
  | fails (k : FaultKind)
deriving DecidableEq, Repr

/-- The access a data request requires: READ of a DATA-READ, WRITE of a DATA-WRITE (R78). -/
inductive Access where
  | read
  | write
deriving DecidableEq, Repr

/-- The page of a logical address, before it is held against a limit (R78). -/
def pageOf (logical : LogAddr) : BitVec 7 := logical.extractLsb' 12 7

/-- The right that an access requires is clear (R78 checks 3 and 4). -/
def deniedBy (e : PageEntry) : Access → Option FaultKind
  | .read => if e.read then none else some .readDenied
  | .write => if e.write then none else some .writeDenied

/-- The four checks of R78 in their order, and the physical address where all pass. A page of 64 or more
is beyond every set. -/
def translateAccess (x : MapSet) (logical : LogAddr) (a : Access) : Translation :=
  let page := pageOf logical
  if h : page < x.limit ∧ page.toNat < 64 then
    let p : PageNo := ⟨page.toNat, h.2⟩
    let e := x.entry p
    if e.valid then
      match deniedBy e a with
      | some k => .fails k
      | none => .passes p (e.frame ++ logical.extractLsb' 0 12)
    else .fails .pageInvalid
  else .fails .pageBeyond

/-! ### The loader -/

/-- A transaction is a data transaction through set `m` (R84). -/
def Transaction.throughSet (t : Transaction) (m : SetNo) : Bool :=
  match t.purpose.through with
  | none => false
  | some (x, _) => x == m

/-- A transaction is a data transaction translated from page `p` of set `m` (R90). -/
def Transaction.throughEntry (t : Transaction) (m : SetNo) (p : PageNo) : Bool :=
  t.purpose.through == some (m, p)

/-- A data transaction through set `m` is in flight (R84). -/
def State.setInUse (s : State) (m : SetNo) : Bool :=
  match s.port.inFlight with
  | none => false
  | some t => t.throughSet m

/-- A data transaction translated from page `p` of set `m` is in flight (R90). -/
def State.entryInUse (s : State) (m : SetNo) (p : PageNo) : Bool :=
  match s.port.inFlight with
  | none => false
  | some t => t.throughEntry m p

/-- The load enters READING: every entry of its set is cleared, and the loader asks for word 0 (R85). -/
def enterReading (l : Loader) (s : State) : State :=
  { s.putSet l.set { s.mapSet l.set with entries := clearedEntries } with
    loader := some { l with phase := .reading, progress := 0 } }

/-- The load whose drain has ended, if there is one (R85). -/
def drainedLoad (s : State) : Option Loader :=
  match s.loader with
  | none => none
  | some l => if l.phase == .draining && !s.setInUse l.set then some l else none

/-- A DRAINING load whose transaction has completed enters READING (R85). -/
def endDrain (s : State) : State :=
  match drainedLoad s with
  | none => s
  | some l => enterReading l s

/-- The load completes: the set takes its new limit and becomes READY, and LOAD MAP completes with OK
(R87). -/
def completeLoad (l : Loader) (s : State) : State :=
  completeCommand .ok
    { s.putSet l.set { s.mapSet l.set with state := .ready, limit := l.newLimit } with
      loader := none }

/-- The load fails: the set is cleared with limit 64 and becomes READY, and LOAD MAP completes with
BUS-ERROR (R88). -/
def failLoad (l : Loader) (s : State) : State :=
  completeCommand .busError { s.putSet l.set MapSet.reset with loader := none }

/-- A word of the image fills the next entry, and the load goes on or completes (R86, R87). -/
def fillEntry (l : Loader) (w : Word) (s : State) : State :=
  let p : PageNo := Fin.ofNat 64 l.progress.toNat
  let s1 := updateEntry l.set p (fun _ => entryOfImage w) s
  let l1 := { l with progress := l.progress + 1 }
  if l1.progress = l.newLimit then completeLoad l1 s1 else { s1 with loader := some l1 }

/-! ### Rewriting one entry -/

/-- The set that an operand names. -/
def setOfOperand (w : Word) : SetNo := Fin.ofNat 8 w.toNat

/-- The page that an operand names. -/
def pageOfOperand (w : Word) : PageNo := Fin.ofNat 64 w.toNat

/-- The entry is replaced from the image word, and WRITE ENTRY completes with OK (R90). -/
def replaceEntry (m : SetNo) (p : PageNo) (image : Word) (s : State) : State :=
  completeCommand .ok (updateEntry m p (fun _ => entryOfImage image) s)

/-- The WRITE ENTRY in progress that has nothing left to wait for, if there is one (R91). -/
def releasedWriteEntry (s : State) : Option Latched :=
  match s.command.inProgress with
  | none => none
  | some l =>
    if l.command == .writeEntry && !s.entryInUse (setOfOperand l.a) (pageOfOperand l.b) then some l
    else none

/-- A waiting WRITE ENTRY whose transaction has completed replaces its entry (R91). -/
def endWriteEntry (s : State) : State :=
  match releasedWriteEntry s with
  | none => s
  | some l => replaceEntry (setOfOperand l.a) (pageOfOperand l.b) l.c s

end Sys2Proof.Machine
end

