-- ==== Sys2Proof/Machine/Arbiter.lean ====
section
/-! DEFINITION. The memory port: the requests that stand, their eligibility, the arbiter's choice and the
issue of a transaction (R98 to R104), and what the part does at the end of every event. -/

namespace Sys2Proof.Machine

/-- A request of a channel (R98). -/
inductive ChannelRequest where
  | desc (addr : PhysAddr)
  | read (logical : LogAddr)
  | write (logical : LogAddr) (w : Word)
deriving DecidableEq, Repr

/-- The data request of a RUNNING channel (R58, R61). -/
def dataRequest (c : Channel) (d : Transfer) : Option ChannelRequest :=
  match d.direction with
  | .inbound => c.staging.head?.map fun w => .write (c.nextLogical d) w
  | .outbound =>
    if c.memoryCount < d.count ∧ c.staging.length < Config.stagingDepth ∧ c.short = false then
      some (.read (c.nextLogical d))
    else none

/-- The request that channel `n` presents: a DESC-READ in FETCHING (R32), a data request in RUNNING
(R58, R61), and none while a transaction of the channel is in flight or in any other state (R3, R98). -/
def channelRequest (s : State) (n : ChannelNo) : Option ChannelRequest :=
  let c := s.channel n
  if s.channelInFlight n then none
  else match c.state with
    | .fetching =>
      if c.fetchProgress < 4 then some (.desc (c.descAddr + c.fetchProgress.setWidth 24)) else none
    | .running =>
      match c.contents with
      | some (.transfer d) => dataRequest c d
      | _ => none
    | _ => none

/-- The set channel `n` is bound to is READY (R77). -/
def boundSetReady (s : State) (n : ChannelNo) : Bool :=
  match (s.channel n).mapSet with
  | none => false
  | some m => (s.mapSet m).state == .ready

/-- The request of channel `n` if it is eligible: a DESC-READ always, a data request while the bound set
is READY (R99). -/
def eligibleRequest (s : State) (n : ChannelNo) : Option ChannelRequest :=
  match channelRequest s n with
  | some (.desc addr) => some (.desc addr)
  | some r => if boundSetReady s n then some r else none
  | none => none

/-- The MAP-READ request of the loader (R86). -/
def mapRequest (s : State) : Option PhysAddr :=
  match s.loader with
  | none => none
  | some l =>
    if l.phase = .reading then some (l.source + l.progress.setWidth 24) else none

/-- Channel `n` is yielding (R101). -/
def yielding (s : State) (n : ChannelNo) : Bool :=
  s.port.streakOwner == some n && s.port.streakLength == Config.streakLimit

/-- The channels with an eligible request, in slot order (R101). -/
def eligibleChannels (s : State) : List ChannelNo :=
  channelNumbers.filter fun n => (eligibleRequest s n).isSome

/-- The arbiter's choice within the channel class: the lowest-numbered channel that is not yielding, and
the yielding channel only where it is alone (R101). -/
def chosenChannel (s : State) : Option ChannelNo :=
  match (eligibleChannels s).find? fun n => !yielding s n with
  | some n => some n
  | none => (eligibleChannels s).head?

/-- The fairness record after a grant to channel `n` that issued a transaction (R102). -/
def streakAfter (p : Port) (n : ChannelNo) (competing : Bool) : Port :=
  if p.streakOwner = some n then
    if competing && decide (p.streakLength < Config.streakLimit) then
      { p with streakLength := p.streakLength + 1 }
    else p
  else { p with streakOwner := some n, streakLength := 1 }

/-- Another channel has an eligible request (R102). -/
def competingFor (s : State) (n : ChannelNo) : Bool :=
  (eligibleChannels s).any fun m => m != n

/-- A transaction is issued with delivery DELIVER (R96, R104). -/
def issue (purpose : Purpose) (addr : PhysAddr) (s : State) : State :=
  let t : Transaction := { purpose := purpose, address := addr, delivery := .deliver }
  { s with port := { s.port with inFlight := some t } }

/-- A transaction is issued for channel `n`, and the fairness record follows (R102, R104). -/
def issueForChannel (n : ChannelNo) (purpose : Purpose) (addr : PhysAddr) (s : State) : State :=
  issue purpose addr { s with port := streakAfter s.port n (competingFor s n) }

/-- What a grant came to: a transaction issued, or a data request refused at translation (R104). -/
inductive GrantResult where
  | issued (s : State)
  | refused (s : State)
deriving DecidableEq, Repr

/-- A data request of channel `n` is granted: it is translated through the bound set, and is issued with
REFERENCED set, or faults the channel with the kind of the failed check (R79, R81, R104). -/
def grantData (n : ChannelNo) (m : SetNo) (logical : LogAddr) (a : Access)
    (purpose : PageNo → Purpose) (s : State) : GrantResult :=
  match translateAccess (s.mapSet m) logical a with
  | .passes p addr => .issued (setReferenced m p (issueForChannel n (purpose p) addr s))
  | .fails k => .refused (enterFaulted n k s)

/-- The request `r` of channel `n` is granted (R104). A data request is eligible only in a channel that is
bound (R99), so the last arm of a channel without a set is never chosen. -/
def grantChannel (n : ChannelNo) (r : ChannelRequest) (s : State) : GrantResult :=
  match r, (s.channel n).mapSet with
  | .desc addr, _ => .issued (issueForChannel n (.descRead n) addr s)
  | .read logical, some m => grantData n m logical .read (fun p => .dataRead n m p) s
  | .write logical w, some m => grantData n m logical .write (fun p => .dataWrite n m p w) s
  | .read _, none => .refused s
  | .write _ _, none => .refused s

/-- A grant to the channel class, with the selection made again after each refusal among the requests
that remain (R79, R101, R104). Each refusal removes one channel's request, so seventeen rounds are
enough. -/
def grantChannels : Nat → State → State
  | 0, s => s
  | k + 1, s =>
    match chosenChannel s with
    | none => s
    | some n =>
      match eligibleRequest s n with
      | none => s
      | some r =>
        match grantChannel n r s with
        | .issued s1 => s1
        | .refused s1 => grantChannels k s1

/-- The arbiter may make a grant: the port is free and the master enable is set (R100, R109). -/
def canGrant (s : State) : Bool := s.port.inFlight.isNone && s.control.masterEnable

/-- The arbiter makes a grant if it may and an eligible request stands (R100), by class: the map loader,
the log writer, the channels (R101). -/
def arbitrate (s : State) : State :=
  if canGrant s then
    match mapRequest s with
    | some addr => issue .mapRead addr s
    | none =>
      match logRequest s with
      | some (addr, w) => issue (.logWrite w) addr s
      | none => grantChannels 17 s
  else s

/-- What the part does at the end of every event, in the order of R106: a waiting load or WRITE ENTRY goes
on (R85, R91), the log writer takes its turn (R137, R144, R148), the arbiter grants (R100), a fault of
that grant reaches the log writer, whose request can then be granted in turn (R137; DEDUCED, unsafe,
log entry 5), and the interrupt causes take their levels (R125, R129). -/
def finishEvent (s : State) : State :=
  let s1 := arbitrate (logWork (endWriteEntry (endDrain s)))
  refreshInterrupts (arbitrate (logWork s1))

/-- The end of an event that reached channel `n`. -/
def finishChannelEvent (n : ChannelNo) (s : State) : State := finishEvent (carryOn n s)

end Sys2Proof.Machine
end

