-- ==== Sys2Proof/Machine/Operands.lean ====
section
/-! DEFINITION. The command port: presenting a command (R163, R164), the operand ranges and the state
checks of every host command (R14 to R27, R83, R147 to R149, R165), and the results it reports. -/

namespace Sys2Proof.Machine

/-! ### Operands -/

/-- The channel that OPERAND A names. -/
def channelOfOperand (w : Word) : ChannelNo := Fin.ofNat 16 w.toNat

/-- An operand names a channel (R14). -/
def isChannel (w : Word) : Bool := decide (w.toNat < 16)

/-- An operand names a map set (R15, R83). -/
def isSet (w : Word) : Bool := decide (w.toNat < 8)

/-- The physical space has 2^24 words (R29). -/
def physicalWords : Nat := 2 ^ 24

/-- The operand ranges of stage 2, each held against the whole word (R165, R176). -/
def operandsInRange (l : Latched) (s : State) : Bool :=
  match l.command with
  | .bind => isChannel l.a && isSet l.b && decide (l.c.toNat < 256)
  | .start => isChannel l.a && decide (l.b.toNat < physicalWords) && decide (l.b.toNat % 4 = 0)
  | .unbind => isChannel l.a
  | .halt => isChannel l.a
  | .continueChannel => isChannel l.a
  | .abort => isChannel l.a
  | .clearFault => isChannel l.a
  | .readChannel => isChannel l.a
  | .loadMap =>
    isSet l.a && decide (l.b.toNat < physicalWords) && decide (1 ≤ l.c.toNat ∧ l.c.toNat ≤ 64)
      && decide (l.b.toNat + l.c.toNat ≤ physicalWords)
  | .writeEntry =>
    isSet l.a && decide (l.b.toNat < (s.mapSet (setOfOperand l.a)).limit.toNat)
      && decide (l.b.toNat < 64)
  | .readEntry => isSet l.a && decide (l.b.toNat < 64)
  | .probe => isSet l.a && decide (l.b.toNat < 2 ^ 18) && (l.c == 1 || l.c == 2)
  | .setLog =>
    decide (l.a.toNat % 4 = 0) && decide (l.a.toNat < physicalWords)
      && decide (2 ≤ l.b.toNat ∧ l.b.toNat ≤ 1024)
      && decide (l.a.toNat + 4 * (l.b.toNat + 1) ≤ physicalWords)
  | .logStop => true
  | .logConsumed => decide (1 ≤ l.a.toNat ∧ l.a.toNat ≤ 1024)

/-! ### State checks -/

/-- BAD-STATE unless the condition holds. -/
def badStateUnless (b : Bool) : Option ResultCode := if b then none else some .badState

/-- CONTINUE is taken in HALTED, FETCHING and HOLDING (R22). -/
def continueTakenIn : ChannelState → Bool
  | .halted | .fetching | .holding => true
  | _ => false

/-- ABORT is taken in FETCHING, RUNNING, SETTLING, HOLDING and HALTED (R24). -/
def abortTakenIn : ChannelState → Bool
  | .fetching | .running | .settling _ | .holding | .halted => true
  | _ => false

/-- CLEAR FAULT in FAULTED: an unlogged record is refused with FAULT-PENDING unless the log is OFF (R27). -/
def clearFaultCheck (c : Channel) (log : LogState) : Option ResultCode :=
  if c.state ≠ .faulted then some .badState
  else match c.fault with
    | some (.unlogged _) => if log = .off then none else some .faultPending
    | _ => none

/-- The state check of stage 3: the result code of a refusal, or `none` where the command is taken
(R165). -/
def stateCheck (l : Latched) (s : State) : Option ResultCode :=
  let c := s.channel (channelOfOperand l.a)
  match l.command with
  | .bind => badStateUnless (c.state == .disabled || c.state == .idle)
  | .unbind => badStateUnless (c.state == .idle && c.pendingEvent.isNone)
  | .start => badStateUnless (c.state == .idle)
  | .halt => badStateUnless (c.state == .fetching || c.state == .running)
  | .continueChannel => badStateUnless (continueTakenIn c.state)
  | .abort => badStateUnless (abortTakenIn c.state)
  | .clearFault => clearFaultCheck c s.log.state
  | .readChannel => none
  | .loadMap => none
  | .writeEntry => none
  | .readEntry => none
  | .probe => none
  | .setLog => badStateUnless (s.log.state == .off)
  | .logStop => badStateUnless (s.log.state != .off)
  | .logConsumed => if s.log.unconsumed.toNat < l.a.toNat then some .underrun else none

/-- Stages 2 and 3 of the check of a presented command, of which the first to fail decides (R165). -/
def commandCheck (l : Latched) (s : State) : Option ResultCode :=
  if operandsInRange l s then stateCheck l s else some .badOperand

/-! ### Presenting a command -/

/-- The command that a write to COMMAND forms: the code and a copy of the operands (R163). -/
def latch (cmd : HostCommand) (s : State) : Latched where
  command := cmd
  a := s.command.operandA
  b := s.command.operandB
  c := s.command.operandC

/-- A write to COMMAND while BUSY is discarded with REFUSED set (R164). -/
def discardCommand (s : State) : State := { s with command := { s.command with refused := true } }

/-- The port accepts a code: REFUSED clears, the last code is set, and the results become 0 (R163). -/
def acceptCode (code : BitVec 8) (s : State) : State :=
  { s with command := { s.command with
      refused := false
      lastCode := code
      result0 := 0
      result1 := 0
      result2 := 0 } }

/-- A presented command is refused: it completes on its event and changes nothing of its owner (R165). -/
def refuseCommand (r : ResultCode) (s : State) : State := refreshInterrupts (completeCommand r s)

/-- The command in progress becomes `l` (R163). -/
def beginCommand (l : Latched) (s : State) : State :=
  { s with command := { s.command with inProgress := some l } }

/-- A write of the code of `cmd` to COMMAND: discarded while BUSY, refused by the checks, or taken, its
owner acting on it by `act` (R163 to R165). -/
def presentCommand (cmd : HostCommand) (act : Latched → State → State) (s : State) : State :=
  if s.command.inProgress.isSome then discardCommand s
  else
    let l := latch cmd s
    let s1 := acceptCode (hostCommandCode cmd) s
    match commandCheck l s1 with
    | some r => refuseCommand r s1
    | none => act l (beginCommand l s1)

/-- A write of a code that is no command's: refused with BAD-COMMAND (R165). -/
def presentUnknown (code : BitVec 8) (s : State) : State :=
  if s.command.inProgress.isSome then discardCommand s
  else refuseCommand .badCommand (acceptCode code s)

/-- The owner's results are placed in RESULT 0, 1 and 2 (R166). -/
def placeResults (r0 r1 r2 : Word) (s : State) : State :=
  { s with command := { s.command with result0 := r0, result1 := r1, result2 := r2 } }

end Sys2Proof.Machine
end

