-- ==== Sys2Proof/Machine/ChannelCommands.lean ====
section
/-! DEFINITION. The channel commands: BIND, UNBIND, START, HALT, CONTINUE, ABORT, CLEAR FAULT and READ
CHANNEL (R14 to R28). `take…` is what a command does once it is taken. -/

namespace Sys2Proof.Machine

/-- BIND taken (R15). -/
def takeBind (l : Latched) (s : State) : State :=
  let n := channelOfOperand l.a
  let c := s.channel n
  refreshInterrupts (completeCommand .ok (s.putChannel n { c with
    state := .idle
    mapSet := some (setOfOperand l.b)
    stallLimit := l.c.setWidth 8
    stallCounter := 0 }))

/-- UNBIND taken: the record takes the values of reset (R16). The link is left as it stands (log entry
13). -/
def takeUnbind (l : Latched) (s : State) : State :=
  let n := channelOfOperand l.a
  refreshInterrupts (completeCommand .ok
    (s.putChannel n { Channel.reset with request := (s.channel n).request }))

/-- START taken (R17). -/
def takeStart (l : Latched) (s : State) : State :=
  let n := channelOfOperand l.a
  let s1 := (completeCommand .ok s).putChannel n
    { s.channel n with linkOnlyRun := 0, short := false }
  finishChannelEvent n (enterFetching n (l.b.setWidth 24) s1)

/-- HALT taken: the channel enters HALTING with the state it was in to resume (R18), and leaves it on
this event where nothing holds it (R19). -/
def takeHalt (l : Latched) (s : State) : State :=
  let n := channelOfOperand l.a
  let c := s.channel n
  let back := if c.state = .running then ResumeState.running else ResumeState.fetching
  finishChannelEvent n (s.putChannel n { c with state := .halting, resume := some back })

/-- The channel returns to RUNNING from HALTED (R22). -/
def resumeRunning (n : ChannelNo) (s : State) : State :=
  s.putChannel n { s.channel n with state := .running, resume := none, stallCounter := 0 }

/-- The fetch starts again at word 0 of the descriptor address the channel holds, and a descriptor read in
flight is abandoned (R22). -/
def restartFetch (n : ChannelNo) (s : State) : State :=
  let s1 := enterFetching n (s.channel n).descAddr (discardTransaction n s)
  s1.putChannel n { s1.channel n with resume := none }

/-- What CONTINUE does to the channel, by its state (R22, R23). -/
def continueFrom (n : ChannelNo) (s : State) : State :=
  let c := s.channel n
  match c.state, c.resume, c.contents with
  | .halted, some .running, _ => resumeRunning n s
  | .halted, _, _ => restartFetch n s
  | .holding, _, some (.transfer d) => settleSelect n d s
  | .fetching, _, _ => restartFetch n s
  | _, _, _ => s

/-- CONTINUE taken (R22, R23). -/
def takeContinue (l : Latched) (s : State) : State :=
  let n := channelOfOperand l.a
  finishChannelEvent n (continueFrom n (completeCommand .ok s))

/-- The words done fixed for the ABORTED record (R24). -/
def abortWords (c : Channel) : BitVec 16 :=
  match c.contents with
  | some (.transfer d) => c.transferWordsDone d
  | _ => 0

/-- A channel record as it stands in ABORTING (R24). -/
def Channel.toAborting (c : Channel) : Channel :=
  { c with
    state := .aborting
    abortWordsDone := some (abortWords c)
    staging := []
    resume := none
    contents := none
    fetchProgress := 0
    fetched := []
    pendingEvent := none }

/-- Channel `n` leaves the post wait list, the others keeping their order (R24). -/
def leaveWaitList (n : ChannelNo) (s : State) : State :=
  { s with queue := { s.queue with waitList := s.queue.waitList.erase n } }

/-- Channel `n` enters ABORTING: a standing request is turned away, what it holds is discarded, and a
transaction in flight is abandoned (R24, R72). -/
def enterAborting (n : ChannelNo) (s : State) : State :=
  let s1 := leaveWaitList n (discardTransaction n (turnAway n s))
  s1.putChannel n (s1.channel n).toAborting

/-- ABORT taken (R24), with the channel leaving ABORTING on this event where nothing of it is in flight
(R25). -/
def takeAbort (l : Latched) (s : State) : State :=
  let n := channelOfOperand l.a
  finishChannelEvent n (enterAborting n s)

/-- A channel record after CLEAR FAULT (R27). -/
def Channel.toCleared (c : Channel) : Channel :=
  { c with
    state := .idle
    stallCounter := 0
    descAddr := 0
    fetchProgress := 0
    fetched := []
    contents := none
    linkOnlyRun := 0
    exchanged := 0
    memoryCount := 0
    short := false
    fault := none }

/-- CLEAR FAULT taken (R27). A channel whose record is unlogged leaves the fault order list. -/
def takeClearFault (l : Latched) (s : State) : State :=
  let n := channelOfOperand l.a
  let s1 := s.putChannel n (s.channel n).toCleared
  refreshInterrupts (completeCommand .ok
    { s1 with log := { s1.log with faultOrder := s1.log.faultOrder.erase n } })

/-- The code of a pending event, 0 where there is none (R28). -/
def pendingCode (c : Channel) : BitVec 4 :=
  match c.pendingEvent with
  | none => 0
  | some r => r.kind.code

/-- The code of a fault, 0 where there is no fault record (R28). -/
def faultCode (c : Channel) : BitVec 4 :=
  match c.fault with
  | none => 0
  | some f => f.kind.code.setWidth 4

/-- The map set shown for a channel, 0 where it has none (R28). -/
def shownSet (c : Channel) : BitVec 3 :=
  match c.mapSet with
  | none => 0
  | some m => BitVec.ofFin (w := 3) m

/-- RESULT 0 of READ CHANNEL (R28, R176). -/
def channelResult0 (c : Channel) : Word :=
  field c.state.code 0 ||| field (shownSet c) 4 ||| field (BitVec.ofNat 3 c.staging.length) 8 |||
    field (pendingCode c) 12 ||| field (faultCode c) 16 ||| bitField c.short 20 |||
    field c.linkOnlyRun 24

/-- RESULT 1 of READ CHANNEL (R28, R176). -/
def channelResult1 (c : Channel) : Word := field c.exchanged 16 ||| field c.memoryCount 0

/-- RESULT 2 of READ CHANNEL (R28, R176). -/
def channelResult2 (c : Channel) : Word := field c.descAddr 0

/-- READ CHANNEL taken (R28). -/
def takeReadChannel (l : Latched) (s : State) : State :=
  let c := s.channel (channelOfOperand l.a)
  refreshInterrupts (completeCommand .ok
    (placeResults (channelResult0 c) (channelResult1 c) (channelResult2 c) s))

/-- BIND (R15). -/
def execBind (s : State) : Host.Outcome State Fault Refusal :=
  .next (presentCommand .bind takeBind s)

/-- UNBIND (R16). -/
def execUnbind (s : State) : Host.Outcome State Fault Refusal :=
  .next (presentCommand .unbind takeUnbind s)

/-- START (R17). -/
def execStart (s : State) : Host.Outcome State Fault Refusal :=
  .next (presentCommand .start takeStart s)

/-- HALT (R18, R19). -/
def execHalt (s : State) : Host.Outcome State Fault Refusal :=
  .next (presentCommand .halt takeHalt s)

/-- CONTINUE (R22, R23). -/
def execContinue (s : State) : Host.Outcome State Fault Refusal :=
  .next (presentCommand .continueChannel takeContinue s)

/-- ABORT (R24, R25). -/
def execAbort (s : State) : Host.Outcome State Fault Refusal :=
  .next (presentCommand .abort takeAbort s)

/-- CLEAR FAULT (R27). -/
def execClearFault (s : State) : Host.Outcome State Fault Refusal :=
  .next (presentCommand .clearFault takeClearFault s)

/-- READ CHANNEL (R28). -/
def execReadChannel (s : State) : Host.Outcome State Fault Refusal :=
  .next (presentCommand .readChannel takeReadChannel s)

end Sys2Proof.Machine
end

