-- ==== Sys2Proof/Machine/Completions.lean ====
section
/-! DEFINITION. The completions of the five kinds of transaction (R34, R59, R60, R62, R86 to R88, R106 to
R108, R138), and the row GRANT (R100). A completion command acts where a transaction of its kind is in
flight; the ending of a transfer that the part does not have in flight is not taken as a completion
(R97; DEDUCED, unsafe, log entry 3). -/

namespace Sys2Proof.Machine

/-- The port becomes free and the record is removed (R106). -/
def freePort (s : State) : State := { s with port := { s.port with inFlight := none } }

/-! ### Descriptor reads -/

/-- A transfer descriptor is accepted: the counts, the short flag, the run and the stall counter are
cleared, and the channel enters RUNNING (R6). -/
def acceptTransfer (n : ChannelNo) (d : Transfer) (s : State) : State :=
  s.putChannel n { s.channel n with
    state := .running
    contents := some (.transfer d)
    exchanged := 0
    memoryCount := 0
    short := false
    linkOnlyRun := 0
    stallCounter := 0 }

/-- A link-only descriptor meets the run check: below 12 it is accepted, the run rises and its link is
followed, and at 12 the channel faults with CHAIN-LIMIT (R6, R40). -/
def acceptLinkOnly (n : ChannelNo) (link : PhysAddr) (s : State) : State :=
  let c := s.channel n
  let held := { c with contents := some (.linkOnly link) }
  if c.linkOnlyRun < Config.linkOnlyLimit then
    followLink n link (s.putChannel n { held with linkOnlyRun := c.linkOnlyRun + 1 })
  else enterFaulted n .chainLimit (s.putChannel n held)

/-- The four words of a fetch are validated, and the descriptor is accepted or faults the channel with
DESC-FORMAT (R36, R37). -/
def acceptDescriptor (n : ChannelNo) (words : List Word) (s : State) : State :=
  match validateDescriptor words with
  | none => enterFaulted n .descFormat s
  | some (.transfer d) => acceptTransfer n d s
  | some (.linkOnly link) => acceptLinkOnly n link s

/-- A descriptor word is kept and fetch progress rises (R5, R34). -/
def keepDescWord (n : ChannelNo) (w : Word) (s : State) : State :=
  let c := s.channel n
  s.putChannel n { c with
    fetchProgress := c.fetchProgress + 1
    fetched := c.fetched ++ [w] }

/-- The fetched words are dropped at validation (R1). -/
def dropFetched (n : ChannelNo) (s : State) : State :=
  s.putChannel n { s.channel n with fetched := [] }

/-- A descriptor word arrives OK in FETCHING: after word 3 the descriptor is validated (R34). -/
def descWordArrives (n : ChannelNo) (w : Word) (s : State) : State :=
  let s1 := keepDescWord n w s
  let c := s1.channel n
  if c.fetchProgress = 4 then acceptDescriptor n c.fetched (dropFetched n s1) else s1

/-- A descriptor read is delivered to channel `n` (R19, R34, R107). -/
def deliverDescRead (n : ChannelNo) (r : BusRead) (s : State) : State :=
  match (s.channel n).state with
  | .fetching =>
    match r with
    | .ok w => descWordArrives n w s
    | .busError => enterFaulted n .busError s
  | .halting =>
    match r with
    | .ok w => keepDescWord n w s
    | .busError => enterFaulted n .busError s
  | _ => s

/-! ### Data transactions -/

/-- A write that completed OK removes the head word and raises memory count (R59). -/
def countWrite (n : ChannelNo) (s : State) : State :=
  let c := s.channel n
  s.putChannel n { c with staging := c.staging.tail, memoryCount := c.memoryCount + 1 }

/-- A read that completed OK adds its word to the tail and raises memory count (R62). -/
def countRead (n : ChannelNo) (w : Word) (s : State) : State :=
  let c := s.channel n
  s.putChannel n { c with staging := c.staging ++ [w], memoryCount := c.memoryCount + 1 }

/-- Only a RUNNING or a HALTING channel takes a data completion (R107). -/
def takesData : ChannelState → Bool
  | .running | .halting => true
  | _ => false

/-- A data write is delivered to channel `n` (R19, R59, R60, R107). -/
def deliverDataWrite (n : ChannelNo) (r : BusWrite) (s : State) : State :=
  if takesData (s.channel n).state then
    match r with
    | .ok => countWrite n s
    | .busError => enterFaulted n .busError s
  else s

/-- A data read is delivered to channel `n` (R19, R62, R107). -/
def deliverDataRead (n : ChannelNo) (r : BusRead) (s : State) : State :=
  if takesData (s.channel n).state then
    match r with
    | .ok w => countRead n w s
    | .busError => enterFaulted n .busError s
  else s

/-- The handling of a channel's completion under the delivery field: the result is delivered, or the
channel is told only that its transaction has ended, or nothing is handed back (R106). -/
def handBack (n : ChannelNo) (d : Delivery) (deliver : State → State) (s : State) : State :=
  match d with
  | .deliver => carryOn n (deliver s)
  | .discard => carryOn n s
  | .orphan => s

/-- MODIFIED is set by a write that completed OK, unless it was orphaned (R82, R106). -/
def modifiedBy (r : BusWrite) (d : Delivery) : Bool := r == .ok && d != .orphan

/-! ### The loader and the log writer -/

/-- A MAP-READ is delivered to the loader (R86 to R88, R108). -/
def deliverMapRead (r : BusRead) (s : State) : State :=
  match s.loader, r with
  | some l, .ok w => fillEntry l w s
  | some l, .busError => failLoad l s
  | none, _ => s

/-- A LOG-WRITE is delivered to the log writer (R108, R138, R145). -/
def deliverLogWrite (r : BusWrite) (s : State) : State :=
  match s.log.underWay, r with
  | some u, .ok => logWordDone u s
  | some _, .busError => abandonRecord s
  | none, _ => s

/-! ### The commands -/

/-- The descriptor read in flight completes (R34, R106, R107). -/
def completeDescRead (r : BusRead) (s : State) : State :=
  match s.port.inFlight with
  | some ⟨.descRead n, _, d⟩ => finishEvent (handBack n d (deliverDescRead n r) (freePort s))
  | _ => s

/-- The data write in flight completes (R59, R60, R106, R107). -/
def completeDataWrite (r : BusWrite) (s : State) : State :=
  match s.port.inFlight with
  | some ⟨.dataWrite n m p _, _, d⟩ =>
    let s1 := if modifiedBy r d then setModified m p (freePort s) else freePort s
    finishEvent (handBack n d (deliverDataWrite n r) s1)
  | _ => s

/-- The data read in flight completes (R62, R106, R107). -/
def completeDataRead (r : BusRead) (s : State) : State :=
  match s.port.inFlight with
  | some ⟨.dataRead n _ _, _, d⟩ => finishEvent (handBack n d (deliverDataRead n r) (freePort s))
  | _ => s

/-- The map image read in flight completes (R86, R106, R108). -/
def completeMapRead (r : BusRead) (s : State) : State :=
  match s.port.inFlight with
  | some ⟨.mapRead, _, d⟩ =>
    finishEvent (if d = .deliver then deliverMapRead r (freePort s) else freePort s)
  | _ => s

/-- The log write in flight completes (R106, R108, R138). -/
def completeLogWrite (r : BusWrite) (s : State) : State :=
  match s.port.inFlight with
  | some ⟨.logWrite _, _, d⟩ =>
    finishEvent (if d = .deliver then deliverLogWrite r (freePort s) else freePort s)
  | _ => s

/-- DESC READ COMPLETE (R34). -/
def execDescReadComplete (r : BusRead) (s : State) : Host.Outcome State Fault Refusal :=
  .next (completeDescRead r s)

/-- DATA WRITE COMPLETE (R59). -/
def execDataWriteComplete (r : BusWrite) (s : State) : Host.Outcome State Fault Refusal :=
  .next (completeDataWrite r s)

/-- DATA READ COMPLETE (R62). -/
def execDataReadComplete (r : BusRead) (s : State) : Host.Outcome State Fault Refusal :=
  .next (completeDataRead r s)

/-- MAP READ COMPLETE (R86). -/
def execMapReadComplete (r : BusRead) (s : State) : Host.Outcome State Fault Refusal :=
  .next (completeMapRead r s)

/-- LOG WRITE COMPLETE (R138). -/
def execLogWriteComplete (r : BusWrite) (s : State) : Host.Outcome State Fault Refusal :=
  .next (completeLogWrite r s)

/-- GRANT: the arbiter makes a grant where it may and an eligible request stands (R100), and nothing
happens otherwise (log entry 2). -/
def execGrant (s : State) : Host.Outcome State Fault Refusal :=
  .next (if canGrant s then finishEvent (arbitrate s) else s)

end Sys2Proof.Machine
end

