-- ==== Sys2Proof/Machine/Events.lean ====
section
/-! DEFINITION. The event queue and the interrupt causes: POP, EVENT SETTINGS WRITE, AGE CONDITION and
INTERRUPT STATUS CLEAR (R117 to R128). -/

namespace Sys2Proof.Machine

/-- The head of the post wait list and its pending event (R118). -/
def oldestWaiter (s : State) : Option (ChannelNo × EventRecord) :=
  match s.queue.waitList with
  | [] => none
  | n :: _ => (s.channel n).pendingEvent.map fun r => (n, r)

/-- Step 2 of a pop: the oldest waiter's pending event joins the tail of the queue, and the channel leaves
the list with its slot empty (R118). -/
def movePending (n : ChannelNo) (r : EventRecord) (s : State) : State :=
  { s.putChannel n { s.channel n with pendingEvent := none } with
    queue := { s.queue with
      records := s.queue.records ++ [r]
      waitList := s.queue.waitList.tail } }

/-- Steps 1 and 3 of a pop: the head leaves the queue and the head age becomes 0 (R118). -/
def removeHead (s : State) : State :=
  { s with queue := { s.queue with records := s.queue.records.tail, headAge := 0 } }

/-- A read of EVENT WORD 1: the head's second word is returned and the head is removed, the queue is
refilled from the post wait list, and the channel whose slot emptied goes on (R118). With the queue
empty it returns 0 and changes nothing else (R119). -/
def popEvent (s : State) : State :=
  match s.queue.records with
  | [] => { s with readData := 0 }
  | r :: _ =>
    let s1 := removeHead { s with readData := r.word1 }
    match oldestWaiter s1 with
    | none => refreshInterrupts s1
    | some (n, p) => finishChannelEvent n (movePending n p s1)

/-- The stored threshold: 0 as 1, above 24 as 24 (R124, R178). -/
def clampThreshold (x : BitVec 8) : BitVec 8 := if x = 0 then 1 else if 24 < x then 24 else x

/-- A write to EVENT SETTINGS (R124, R178). -/
def writeEventSettings (w : Word) (s : State) : State :=
  refreshInterrupts { s with queue := { s.queue with
    threshold := clampThreshold (w.setWidth 8)
    delay := w.extractLsb' 8 8 } }

/-- A write to INTERRUPT STATUS clears each latched cause whose bit is 1 (R127, R175). -/
def clearInterrupts (w : Word) (s : State) : State :=
  refreshInterrupts { s with interrupts := { s.interrupts with
    command := s.interrupts.command && !w.getLsbD 2
    fault := s.interrupts.fault && !w.getLsbD 3
    log := s.interrupts.log && !w.getLsbD 4 } }

/-- The age condition of EVENTS (R125). -/
def ageConditionHolds (q : EventQueue) : Bool :=
  q.delay != 0 && !q.records.isEmpty && decide (q.delay ≤ q.headAge)

/-- POP: a read of EVENT WORD 1 (R118, R119). -/
def execPop (s : State) : Host.Outcome State Fault Refusal := .next (popEvent s)

/-- EVENT SETTINGS WRITE (R124). -/
def execEventSettingsWrite (w : Word) (s : State) : Host.Outcome State Fault Refusal :=
  .next (writeEventSettings w s)

/-- INTERRUPT STATUS CLEAR (R127). -/
def execInterruptStatusClear (w : Word) (s : State) : Host.Outcome State Fault Refusal :=
  .next (clearInterrupts w s)

/-- AGE CONDITION: where the head age stands at or above a delay that is on, EVENTS is raised and INTOUT
follows (R125, R129), and nothing happens otherwise (log entry 2). -/
def execAgeCondition (s : State) : Host.Outcome State Fault Refusal :=
  .next (if ageConditionHolds s.queue then refreshInterrupts s else s)

end Sys2Proof.Machine
end

