-- ==== Sys2Proof/Machine/Internal.lean ====
section
/-! DEFINITION. The channel transitions that the table lists as rows of their own: WAITING POST, BLOCK
COMPLETE, LEAVE HALTING and LEAVE ABORTING (R10, R19, R25, R69). Each acts where its condition holds, and
changes nothing where it does not (log entry 2). -/

namespace Sys2Proof.Machine

/-- A post of channel `n` that waited can be made: the channel stands in SETTLING or HALTING and its
pending-event slot is empty (R9, R10). -/
def waitingPostDue (s : State) (n : ChannelNo) : Bool :=
  (resumedStep s n).isSome || leaveHaltingDue s n

/-- WAITING POST: the post that waited is made and the transition goes on (R10, R19, R41). -/
def execWaitingPost (n : ChannelNo) (s : State) : Host.Outcome State Fault Refusal :=
  .next (if waitingPostDue s n then
    finishChannelEvent n (leaveHalting n (resumeSettling n s)) else s)

/-- BLOCK COMPLETE: a RUNNING channel whose completion condition holds enters SETTLING at step REPORT
(R69). -/
def execBlockComplete (n : ChannelNo) (s : State) : Host.Outcome State Fault Refusal :=
  .next (if (completedBlock s n).isSome then finishChannelEvent n (completeBlock n s) else s)

/-- LEAVE HALTING: a HALTING channel with nothing to wait for posts HALTED and enters HALTED (R19). -/
def execLeaveHalting (n : ChannelNo) (s : State) : Host.Outcome State Fault Refusal :=
  .next (if leaveHaltingDue s n then finishChannelEvent n (leaveHalting n s) else s)

/-- LEAVE ABORTING: an ABORTING channel with nothing in flight posts ABORTED and enters IDLE (R25). -/
def execLeaveAborting (n : ChannelNo) (s : State) : Host.Outcome State Fault Refusal :=
  .next (if leaveAbortingDue s n then finishChannelEvent n (leaveAborting n s) else s)

end Sys2Proof.Machine
end

