-- ==== Sys2Proof/Machine/Link.lean ====
section
/-! DEFINITION. The commands of the channel link: OFFER, ASK, END, FAIL, REQUEST VALID FALL and WAITING
REQUEST MET (R50 to R72). -/

namespace Sys2Proof.Machine

/-- OFFER on slot `n` with the word `w` (R50, R53, R57, R64). -/
def execOffer (n : ChannelNo) (w : Word) (s : State) : Host.Outcome State Fault Refusal :=
  .next (finishEvent (arrive n (.offer w) s))

/-- ASK on slot `n` (R50, R53, R63, R64). -/
def execAsk (n : ChannelNo) (s : State) : Host.Outcome State Fault Refusal :=
  .next (finishEvent (arrive n .ask s))

/-- END on slot `n` (R50, R54, R65 to R67). -/
def execEndBlock (n : ChannelNo) (s : State) : Host.Outcome State Fault Refusal :=
  .next (finishEvent (arrive n .endBlock s))

/-- FAIL on slot `n` (R51, R68). -/
def execFail (n : ChannelNo) (s : State) : Host.Outcome State Fault Refusal :=
  .next (finishEvent (arriveFail n s))

/-- Request valid of slot `n` falls (R50). -/
def execRequestValidFall (n : ChannelNo) (s : State) : Host.Outcome State Fault Refusal :=
  .next (finishEvent (lowerRequestValid n s))

/-- WAITING REQUEST MET: the request standing on slot `n` is met again, and is answered where the rules for
the channel's state give an answer (R52). Nothing happens where no request stands (log entry 2). -/
def execWaitingRequestMet (n : ChannelNo) (s : State) : Host.Outcome State Fault Refusal :=
  .next (if (s.channel n).request.isSome then finishChannelEvent n (meetRequest n s) else s)

end Sys2Proof.Machine
end

