-- ==== Sys2Proof/Machine/LogCommands.lean ====
section
/-! DEFINITION. The log commands SET LOG, LOG STOP and LOG CONSUMED (R147 to R149), and the rows LOG RECORD
BEGIN, OVERFLOW RECORD BEGIN and LOG STOP COMPLETE (R137, R144, R148). -/

namespace Sys2Proof.Machine

/-- SET LOG taken (R147). The writer takes its turn on the same event (R137). -/
def takeSetLog (l : Latched) (s : State) : State :=
  finishEvent (completeCommand .ok { s with log := { s.log with
    state := .running
    base := l.a.setWidth 24
    capacity := l.b.setWidth 11
    writeIndex := 0
    unconsumed := 0
    nextSequence := 1 } })

/-- LOG STOP taken: the log enters OFF at once, or the command waits for the record under way (R148). -/
def takeLogStop (_l : Latched) (s : State) : State :=
  if s.log.underWay.isSome then s else refreshInterrupts (stopLog .ok s)

/-- The log state after a consumption: a FULL log enters RUNNING (R149). -/
def consumedState : LogState → LogState
  | .full => .running
  | x => x

/-- LOG CONSUMED taken: U falls, a FULL log enters RUNNING, and the writer takes its turn (R149). -/
def takeLogConsumed (l : Latched) (s : State) : State :=
  finishEvent (completeCommand .ok { s with log := { s.log with
    unconsumed := s.log.unconsumed - l.a.setWidth 11
    state := consumedState s.log.state } })

/-- SET LOG (R147). -/
def execSetLog (s : State) : Host.Outcome State Fault Refusal :=
  .next (presentCommand .setLog takeSetLog s)

/-- LOG STOP (R148). -/
def execLogStop (s : State) : Host.Outcome State Fault Refusal :=
  .next (presentCommand .logStop takeLogStop s)

/-- LOG CONSUMED (R149). -/
def execLogConsumed (s : State) : Host.Outcome State Fault Refusal :=
  .next (presentCommand .logConsumed takeLogConsumed s)

/-- LOG RECORD BEGIN: a ring record is begun where its conditions hold (R137), and nothing happens where
they do not (log entry 2). -/
def execLogRecordBegin (s : State) : Host.Outcome State Fault Refusal :=
  .next (if (ringRecordDue s).isSome then finishEvent (beginRingRecord s) else s)

/-- OVERFLOW RECORD BEGIN: the overflow record is begun where its conditions hold (R144), and nothing
happens where they do not (log entry 2). -/
def execOverflowRecordBegin (s : State) : Host.Outcome State Fault Refusal :=
  .next (if (overflowRecordDue s).isSome then finishEvent (beginOverflowRecord s) else s)

/-- LOG STOP COMPLETE: a waiting LOG STOP with no record left to wait for completes (R148), and nothing
happens otherwise (log entry 2). -/
def execLogStopComplete (s : State) : Host.Outcome State Fault Refusal :=
  .next (if logStopDue s then finishEvent (endLogStop s) else s)

end Sys2Proof.Machine
end

