-- ==== Sys2Proof/Machine/MapCommands.lean ====
section
/-! DEFINITION. The map commands LOAD MAP, WRITE ENTRY, READ ENTRY and PROBE (R83 to R94), and the rows
DRAIN END and WRITE ENTRY REPLACE (R85, R91). -/

namespace Sys2Proof.Machine

/-- The loader record that a LOAD MAP forms (R84). -/
def newLoader (l : Latched) : Loader where
  set := setOfOperand l.a
  source := l.b.setWidth 24
  newLimit := l.c.setWidth 7
  phase := .draining
  progress := 0

/-- LOAD MAP taken: the set enters LOADING and the loader record is formed. The load drains a data
transaction through the set, and otherwise enters READING at once (R84, R85). -/
def takeLoadMap (l : Latched) (s : State) : State :=
  let ld := newLoader l
  let s1 := { s.putSet ld.set { s.mapSet ld.set with state := .loading } with loader := some ld }
  finishEvent (if s.setInUse ld.set then s1 else enterReading ld s1)

/-- WRITE ENTRY taken: the entry is replaced at once, or the command waits for a transaction translated
from it (R90). -/
def takeWriteEntry (l : Latched) (s : State) : State :=
  let m := setOfOperand l.a
  let p := pageOfOperand l.b
  if s.entryInUse m p then s else refreshInterrupts (replaceEntry m p l.c s)

/-- The code of a set state (R176). -/
def setStateBit : SetState → Bool
  | .ready => false
  | .loading => true

/-- RESULT 1 of READ ENTRY: the limit and the state (R93, R176). -/
def entryResult1 (x : MapSet) : Word := field x.limit 0 ||| bitField (setStateBit x.state) 8

/-- READ ENTRY taken (R93). -/
def takeReadEntry (l : Latched) (s : State) : State :=
  let x := s.mapSet (setOfOperand l.a)
  refreshInterrupts (completeCommand .ok
    (placeResults (imageOfEntry (x.entry (pageOfOperand l.b))) (entryResult1 x) 0 s))

/-- PROBE's access operand: 1 for READ, 2 for WRITE (R94). -/
def accessOfOperand (w : Word) : Access := if w = 1 then .read else .write

/-- RESULT 0 and RESULT 1 of PROBE: the outcome code, and the physical address where every check passes
(R94, R176). -/
def probeResults : Translation → Word × Word
  | .passes _ addr => (0, field addr 0)
  | .fails k => (field (k.code.setWidth 4) 0, 0)

/-- PROBE taken (R94). -/
def takeProbe (l : Latched) (s : State) : State :=
  let x := s.mapSet (setOfOperand l.a)
  let r := probeResults (translateAccess x (l.b.setWidth 19) (accessOfOperand l.c))
  refreshInterrupts (completeCommand .ok (placeResults r.1 r.2 0 s))

/-- LOAD MAP (R84). -/
def execLoadMap (s : State) : Host.Outcome State Fault Refusal :=
  .next (presentCommand .loadMap takeLoadMap s)

/-- WRITE ENTRY (R90). -/
def execWriteEntry (s : State) : Host.Outcome State Fault Refusal :=
  .next (presentCommand .writeEntry takeWriteEntry s)

/-- READ ENTRY (R93). -/
def execReadEntry (s : State) : Host.Outcome State Fault Refusal :=
  .next (presentCommand .readEntry takeReadEntry s)

/-- PROBE (R94). -/
def execProbe (s : State) : Host.Outcome State Fault Refusal :=
  .next (presentCommand .probe takeProbe s)

/-- DRAIN END: the transaction a DRAINING load waited for is gone, and the load enters READING (R85).
Nothing happens where no load has such a drain to end (log entry 2). -/
def execDrainEnd (s : State) : Host.Outcome State Fault Refusal :=
  .next (if (drainedLoad s).isSome then finishEvent (endDrain s) else s)

/-- WRITE ENTRY REPLACE: a waiting WRITE ENTRY replaces its entry (R91). Nothing happens where none has
its transaction completed (log entry 2). -/
def execWriteEntryReplace (s : State) : Host.Outcome State Fault Refusal :=
  .next (if (releasedWriteEntry s).isSome then finishEvent (endWriteEntry s) else s)

end Sys2Proof.Machine
end

