-- ==== Sys2Proof/Machine/Resets.lean ====
section
/-! DEFINITION. Power-on reset and soft reset (R2, R75, R76, R97, R110, R130, R135, R153, R162, R169, R173,
R174). -/

namespace Sys2Proof.Machine

/-- A slot when power-on reset ends: a request standing on its lines is taken as arriving, meets a DISABLED
channel and is turned away (R2, R50, R53, R54). A slot whose last answer is still up keeps it until
request valid falls, and a request that stood with request valid already lowered is gone with the record and
gets no answer: only what is on the raised lines is taken as still standing (R50; DESIGN CHOICE, unsafe, log
entry 10). -/
def slotAfterPowerOn (l : Slot) : Slot :=
  if l.answerValid then l
  else match l.lines with
    | none => l
    | some r => { l with answer := some (turnAwayAnswer r), answerValid := true }

/-- Power-on reset. The commands that wait and the count of free values drawn are the model's own. -/
def powerOn (s : State) : State :=
  { State.reset with
    slots := mapTable slotAfterPowerOn s.slots
    tickDraws := s.tickDraws
    pending := s.pending }

/-- A slot after soft reset: a standing request is answered REFUSE, whatever its kind (R2). -/
def slotAfterSoftReset (l : Slot) (standing : Bool) : Slot :=
  if standing then { l with answer := some .refuse, answerValid := l.lines.isSome } else l

/-- All slots after soft reset. -/
def softResetSlots (s : State) : State :=
  channelNumbers.foldl
    (fun t n => t.putSlot n (slotAfterSoftReset (t.slot n) (s.channel n).request.isSome)) s

/-- A map set after soft reset: a READY set is kept, a LOADING one is cleared (R76). -/
def setAfterSoftReset (x : MapSet) : MapSet :=
  match x.state with
  | .ready => x
  | .loading => MapSet.reset

/-- The memory port after soft reset: a transaction in flight is orphaned (R110). -/
def portAfterSoftReset (p : Port) : Port :=
  { Port.reset with inFlight := p.inFlight.map fun t => { t with delivery := .orphan } }

/-- Soft reset (R174). -/
def softReset (s : State) : State :=
  { softResetSlots s with
    channels := Vector.replicate 16 Channel.reset
    sets := mapTable setAfterSoftReset s.sets
    loader := none
    port := portAfterSoftReset s.port
    queue := EventQueue.reset
    log := LogWriter.reset
    timer := Timer.reset
    command := CommandPort.reset
    interrupts := Interrupts.reset
    control := Control.reset }

/-- POWER ON RESET. -/
def execPowerOnReset (s : State) : Host.Outcome State Fault Refusal := .next (powerOn s)

/-- SOFT RESET: a write to CONTROL with bit 31 set. No other bit of the word is stored or looked at (R174). -/
def execSoftReset (_w : Word) (s : State) : Host.Outcome State Fault Refusal := .next (softReset s)

end Sys2Proof.Machine
end

