-- ==== Sys2Proof/Machine/Ticks.lean ====
section
/-! DEFINITION. The interval timer: the microsecond, the tick, stall supervision (R153 to R161), and the
rows TICK, STALL TIMEOUT and TIMER PERIOD WRITE. -/

namespace Sys2Proof.Machine

/-- A channel on the descriptor `d` is ready for its peripheral (R157). -/
def readyOn (c : Channel) (d : Transfer) : Bool :=
  match d.direction with
  | .inbound => canTake c d
  | .outbound => !c.staging.isEmpty

/-- A channel is ready for its peripheral: it is in RUNNING and could take or give a word (R157). -/
def readyForPeripheral (c : Channel) : Bool :=
  match c.state, c.contents with
  | .running, some (.transfer d) => readyOn c d
  | _, _ => false

/-- A tick raises the stall counter of a ready channel with a stall limit of 1 to 255, and leaves every
other record as it is (R158). -/
def tickChannel (c : Channel) : Channel :=
  if c.stallLimit ≠ 0 ∧ readyForPeripheral c = true then
    { c with stallCounter := c.stallCounter + 1 }
  else c

/-- A ready channel's stall counter stands at its stall limit (R158, R159). -/
def stalled (c : Channel) : Bool :=
  c.stallLimit != 0 && readyForPeripheral c && c.stallCounter == c.stallLimit

/-- The channels whose stall counter stands at the limit, in slot order. -/
def stalledChannels (s : State) : List ChannelNo :=
  channelNumbers.filter fun n => stalled (s.channel n)

/-- Inserts a channel before the first of a greater rank. -/
def insertByRank (rank : ChannelNo → Nat) (n : ChannelNo) : List ChannelNo → List ChannelNo
  | [] => [n]
  | m :: rest => if rank n < rank m then n :: m :: rest else m :: insertByRank rank n rest

/-- A list of channels in the order of a rank. -/
def orderByRank (rank : ChannelNo → Nat) : List ChannelNo → List ChannelNo
  | [] => []
  | n :: rest => insertByRank rank n (orderByRank rank rest)

/-- The channels of `due` fault with STALL-TIMEOUT, in the order of the list (R159). -/
def faultStalled (due : List ChannelNo) (s : State) : State :=
  due.foldl (fun t n => enterFaulted n .stallTimeout t) s

/-- The channels that time out on this tick fault, in an order that the part does not fix (R159): the
free value `Config.tickOrder` (log entry 7). -/
def timeOutStalled (s : State) : State :=
  let due := orderByRank (Config.tickOrder s.tickDraws) (stalledChannels s)
  faultStalled due { s with tickDraws := s.tickDraws + 1 }

/-- A tick raises the head age of a non-empty queue, which stays at 255 (R123). -/
def tickHeadAge (q : EventQueue) : EventQueue :=
  if q.records.isEmpty || q.headAge == 255 then q else { q with headAge := q.headAge + 1 }

/-- The tick: the tick count rises, each channel takes the tick, and the event queue ages (R154). -/
def tickEvent (s : State) : State :=
  let s1 := { s with
    timer := { s.timer with tickCount := s.timer.tickCount + 1 }
    channels := mapTable tickChannel s.channels
    queue := tickHeadAge s.queue }
  finishEvent (timeOutStalled s1)

/-- The prescaler returns to position 0. -/
def restartPrescaler (s : State) : State := { s with timer := { s.timer with prescaler := 0 } }

/-- One microsecond of the on-chip time base: the prescaler position rises, and where it would reach the
period it returns to 0 and a tick occurs (R153). -/
def microsecond (s : State) : State :=
  if s.timer.prescaler.toNat + 1 < s.timer.period.toNat then
    { s with timer := { s.timer with prescaler := s.timer.prescaler + 1 } }
  else tickEvent (restartPrescaler s)

/-- A write to TIMER PERIOD: the low 16 bits set the period and restart the prescaler, and 0 is discarded
(R155, R178). -/
def writeTimerPeriod (w : Word) (s : State) : State :=
  if w.setWidth 16 = (0 : BitVec 16) then s
  else { s with timer := { s.timer with period := w.setWidth 16, prescaler := 0 } }

/-- TICK: the prescaler reaches the period (R153, R154). -/
def execTick (s : State) : Host.Outcome State Fault Refusal :=
  .next (tickEvent (restartPrescaler s))

/-- STALL TIMEOUT: a ready channel whose stall counter stands at its limit faults with STALL-TIMEOUT
(R159), and nothing happens otherwise (log entry 2). -/
def execStallTimeout (n : ChannelNo) (s : State) : Host.Outcome State Fault Refusal :=
  .next (if stalled (s.channel n) then finishEvent (enterFaulted n .stallTimeout s) else s)

/-- TIMER PERIOD WRITE (R155). -/
def execTimerPeriodWrite (w : Word) (s : State) : Host.Outcome State Fault Refusal :=
  .next (writeTimerPeriod w s)

end Sys2Proof.Machine
end

