-- ==== Sys2Proof/WellFormed.lean ====
section
/-! DEFINITION. Which terms of `Instr` are commands of their row. A channel, set or offset out of range
cannot be written down; what is left to check is that a write of a whole word is the write its row
names. `exec` gives a term that is not well formed the effect that the write of its word has; SOFT RESET is
the soft reset whatever its word (log entry 15). -/

namespace Sys2Proof

/-- The soft-reset trigger of CONTROL (R173). -/
def softResetBit (w : Word) : Bool := w.getLsbD 31

/-- Registers whose writes have rows of their own: CONTROL, INTERRUPT STATUS, COMMAND, EVENT SETTINGS
and TIMER PERIOD (R171). -/
def ownBehaviourOffsets : List (BitVec 5) := [1, 2, 4, 15, 19]

/-- A term is a command of its row. -/
def WellFormed : Instr → Bool
  | .softReset w => softResetBit w
  | .masterEnable w => !softResetBit w
  | .interruptEnable w => !softResetBit w
  | .unknownCommand w => (hostCommandOfCode (writtenCode w)).isNone
  | .registerWrite offset _ => !ownBehaviourOffsets.contains offset
  | _ => true

end Sys2Proof
end

