-- ==== Sys2Proof/Machine/Window.lean ====
section
/-! DEFINITION. The register window (R171 to R178): what a read of each offset returns, what a write to each
offset does, and the rows MASTER ENABLE, INTERRUPT ENABLE, UNKNOWN COMMAND and REGISTER WRITE. -/

namespace Sys2Proof.Machine

/-! ### Reads -/

/-- CONTROL as it reads (R173). -/
def controlWord (c : Control) : Word :=
  bitField c.masterEnable 0 ||| bitField c.eventsEnable 1 ||| bitField c.commandEnable 2 |||
    bitField c.faultEnable 3 ||| bitField c.logEnable 4

/-- INTERRUPT STATUS as it reads (R128, R175). -/
def interruptWord (i : Interrupts) : Word :=
  bitField i.events 1 ||| bitField i.command 2 ||| bitField i.fault 3 ||| bitField i.log 4

/-- ATTENTION: bit n is set while channel n is FAULTED (R13, R175). -/
def attentionWord (s : State) : Word :=
  channelNumbers.foldl (fun w n => w ||| bitField ((s.channel n).state == .faulted) n.val) 0

/-- COMMAND STATUS as it reads (R162, R176). -/
def commandStatusWord (p : CommandPort) : Word :=
  bitField p.inProgress.isSome 0 ||| bitField p.refused 1 ||| field p.lastResult.code 8 |||
    field p.lastCode 16

/-- EVENT WORD 0 as it reads: word 0 of the head, or 0 (R117). -/
def eventWord0 (q : EventQueue) : Word :=
  match q.records with
  | [] => 0
  | r :: _ => r.word0

/-- The word that a read of EVENT WORD 1 returns: word 1 of the head, or 0 (R118, R119). -/
def eventWord1 (q : EventQueue) : Word :=
  match q.records with
  | [] => 0
  | r :: _ => r.word1

/-- EVENT STATUS as it reads (R122, R178). -/
def eventStatusWord (q : EventQueue) : Word :=
  field (BitVec.ofNat 5 q.records.length) 0 ||| field (BitVec.ofNat 5 q.waitList.length) 8 |||
    field q.headAge 16

/-- EVENT SETTINGS as it reads (R124, R178). -/
def eventSettingsWord (q : EventQueue) : Word := field q.threshold 0 ||| field q.delay 8

/-- LOG STATUS as it reads (R151, R178). -/
def logStatusWord (l : LogWriter) : Word := field l.state.code 0 ||| field l.unconsumed 16

/-- LOG POSITION as it reads (R151, R178). -/
def logPositionWord (l : LogWriter) : Word := field l.writeIndex 0 ||| field l.nextSequence 16

/-- CHANNEL STATES: eight state codes of four bits, from the first channel up (R4, R175). -/
def channelStatesWord (s : State) (first : List ChannelNo) : Word :=
  first.foldl (fun w n => w ||| field (s.channel n).state.code (4 * (n.val % 8))) 0

/-- All set numbers. -/
def setNumbers : List SetNo := [0, 1, 2, 3, 4, 5, 6, 7]

/-- MAP SET STATES: bit n is set while set n is LOADING (R95, R175). -/
def mapSetStatesWord (s : State) : Word :=
  setNumbers.foldl (fun w m => w ||| bitField (setStateBit (s.mapSet m).state) m.val) 0

/-- The word a host read of the window returns at `offset`, as the register stands (R171). The read has no
effect but at EVENT WORD 1, where it is the command POP. -/
def windowRead (s : State) (offset : BitVec 5) : Word :=
  match offset.toNat with
  | 0 => Config.ident
  | 1 => controlWord s.control
  | 2 => interruptWord s.interrupts
  | 3 => attentionWord s
  | 4 => field s.command.lastCode 0
  | 5 => s.command.operandA
  | 6 => s.command.operandB
  | 7 => s.command.operandC
  | 8 => commandStatusWord s.command
  | 9 => s.command.result0
  | 10 => s.command.result1
  | 11 => s.command.result2
  | 12 => eventWord0 s.queue
  | 13 => eventWord1 s.queue
  | 14 => eventStatusWord s.queue
  | 15 => eventSettingsWord s.queue
  | 16 => logStatusWord s.log
  | 17 => logPositionWord s.log
  | 18 => field s.timer.tickCount 0
  | 19 => field s.timer.period 0
  | 20 => channelStatesWord s [0, 1, 2, 3, 4, 5, 6, 7]
  | 21 => channelStatesWord s [8, 9, 10, 11, 12, 13, 14, 15]
  | 22 => mapSetStatesWord s
  | _ => 0

/-- The bus request line is raised exactly while a transaction is in flight (R105). -/
def busRequest (s : State) : Bool := s.port.inFlight.isSome

/-! ### Writes -/

/-- The enables that a word written to CONTROL holds (R173). -/
def controlOfWord (w : Word) : Control where
  masterEnable := w.getLsbD 0
  eventsEnable := w.getLsbD 1
  commandEnable := w.getLsbD 2
  faultEnable := w.getLsbD 3
  logEnable := w.getLsbD 4

/-- A write to CONTROL: with bit 31 set a soft reset (R174), and otherwise the five enables are stored and
act on their owners on this event (R100, R109, R129, R173). -/
def writeControl (w : Word) (s : State) : State :=
  if softResetBit w then softReset s else finishEvent { s with control := controlOfWord w }

/-- What the owner of a host command does once it is taken. -/
def takeCommand : HostCommand → Latched → State → State
  | .bind => takeBind
  | .unbind => takeUnbind
  | .start => takeStart
  | .halt => takeHalt
  | .continueChannel => takeContinue
  | .abort => takeAbort
  | .clearFault => takeClearFault
  | .readChannel => takeReadChannel
  | .loadMap => takeLoadMap
  | .writeEntry => takeWriteEntry
  | .readEntry => takeReadEntry
  | .probe => takeProbe
  | .setLog => takeSetLog
  | .logStop => takeLogStop
  | .logConsumed => takeLogConsumed

/-- A write to COMMAND: its low eight bits are the code presented (R163, R165, R176). -/
def writeCommand (w : Word) (s : State) : State :=
  match hostCommandOfCode (writtenCode w) with
  | some cmd => presentCommand cmd (takeCommand cmd) s
  | none => presentUnknown (writtenCode w) s

/-- A write of `w` to the window at `offset`; a register that is read only, and an offset that holds no
register, ignore it (R171). -/
def windowWrite (offset : BitVec 5) (w : Word) (s : State) : State :=
  match offset.toNat with
  | 1 => writeControl w s
  | 2 => clearInterrupts w s
  | 4 => writeCommand w s
  | 5 => { s with command := { s.command with operandA := w } }
  | 6 => { s with command := { s.command with operandB := w } }
  | 7 => { s with command := { s.command with operandC := w } }
  | 15 => writeEventSettings w s
  | 19 => writeTimerPeriod w s
  | _ => s

/-- MASTER ENABLE: a write to CONTROL (R109, R173). -/
def execMasterEnable (w : Word) (s : State) : Host.Outcome State Fault Refusal :=
  .next (writeControl w s)

/-- INTERRUPT ENABLE: a write to CONTROL (R129, R173). -/
def execInterruptEnable (w : Word) (s : State) : Host.Outcome State Fault Refusal :=
  .next (writeControl w s)

/-- UNKNOWN COMMAND: a write to COMMAND (R165). A word that spells a command presents it (log entry 15). -/
def execUnknownCommand (w : Word) (s : State) : Host.Outcome State Fault Refusal :=
  .next (writeCommand w s)

/-- REGISTER WRITE: a write to any offset of the window (R171). -/
def execRegisterWrite (offset : BitVec 5) (w : Word) (s : State) :
    Host.Outcome State Fault Refusal :=
  .next (windowWrite offset w s)

end Sys2Proof.Machine
end

