-- ==== Sys2Proof/Machine/Dispatch.lean ====
section
/-! DEFINITION. The meaning of every command: one arm per row of spec/opcode_table.json. -/

namespace Sys2Proof.Machine

def exec (i : Instr) (s : State) : Host.Outcome State Fault Refusal :=
  match i with
  | .powerOnReset => Sys2Proof.Machine.execPowerOnReset s
  | .softReset w => Sys2Proof.Machine.execSoftReset w s
  | .offer n w => Sys2Proof.Machine.execOffer n w s
  | .ask n => Sys2Proof.Machine.execAsk n s
  | .endBlock n => Sys2Proof.Machine.execEndBlock n s
  | .fail n => Sys2Proof.Machine.execFail n s
  | .requestValidFall n => Sys2Proof.Machine.execRequestValidFall n s
  | .descReadComplete r => Sys2Proof.Machine.execDescReadComplete r s
  | .dataWriteComplete r => Sys2Proof.Machine.execDataWriteComplete r s
  | .dataReadComplete r => Sys2Proof.Machine.execDataReadComplete r s
  | .mapReadComplete r => Sys2Proof.Machine.execMapReadComplete r s
  | .logWriteComplete r => Sys2Proof.Machine.execLogWriteComplete r s
  | .grant => Sys2Proof.Machine.execGrant s
  | .tick => Sys2Proof.Machine.execTick s
  | .stallTimeout n => Sys2Proof.Machine.execStallTimeout n s
  | .ageCondition => Sys2Proof.Machine.execAgeCondition s
  | .bind => Sys2Proof.Machine.execBind s
  | .unbind => Sys2Proof.Machine.execUnbind s
  | .start => Sys2Proof.Machine.execStart s
  | .halt => Sys2Proof.Machine.execHalt s
  | .continueChannel => Sys2Proof.Machine.execContinue s
  | .abort => Sys2Proof.Machine.execAbort s
  | .clearFault => Sys2Proof.Machine.execClearFault s
  | .readChannel => Sys2Proof.Machine.execReadChannel s
  | .loadMap => Sys2Proof.Machine.execLoadMap s
  | .writeEntry => Sys2Proof.Machine.execWriteEntry s
  | .readEntry => Sys2Proof.Machine.execReadEntry s
  | .probe => Sys2Proof.Machine.execProbe s
  | .setLog => Sys2Proof.Machine.execSetLog s
  | .logStop => Sys2Proof.Machine.execLogStop s
  | .logConsumed => Sys2Proof.Machine.execLogConsumed s
  | .unknownCommand w => Sys2Proof.Machine.execUnknownCommand w s
  | .masterEnable w => Sys2Proof.Machine.execMasterEnable w s
  | .interruptEnable w => Sys2Proof.Machine.execInterruptEnable w s
  | .interruptStatusClear w => Sys2Proof.Machine.execInterruptStatusClear w s
  | .pop => Sys2Proof.Machine.execPop s
  | .eventSettingsWrite w => Sys2Proof.Machine.execEventSettingsWrite w s
  | .timerPeriodWrite w => Sys2Proof.Machine.execTimerPeriodWrite w s
  | .registerWrite a w => Sys2Proof.Machine.execRegisterWrite a w s
  | .waitingRequestMet n => Sys2Proof.Machine.execWaitingRequestMet n s
  | .waitingPost n => Sys2Proof.Machine.execWaitingPost n s
  | .blockComplete n => Sys2Proof.Machine.execBlockComplete n s
  | .leaveHalting n => Sys2Proof.Machine.execLeaveHalting n s
  | .leaveAborting n => Sys2Proof.Machine.execLeaveAborting n s
  | .drainEnd => Sys2Proof.Machine.execDrainEnd s
  | .writeEntryReplace => Sys2Proof.Machine.execWriteEntryReplace s
  | .logRecordBegin => Sys2Proof.Machine.execLogRecordBegin s
  | .overflowRecordBegin => Sys2Proof.Machine.execOverflowRecordBegin s
  | .logStopComplete => Sys2Proof.Machine.execLogStopComplete s

end Sys2Proof.Machine
end

