-- ==== Sys2Proof/Safety.lean ====
section
/-! DEFINITION. What the claims speak of: the invariants of the part, one structure for each group of
state, and the frames of an event. -/

namespace Sys2Proof.Machine

/-! ### Invariants -/

/-- The event queue and the post wait list (R114, R116). -/
structure QueueInv (s : State) : Prop where
  /-- The queue holds at most 24 records. -/
  depth : s.queue.records.length ≤ 24
  /-- Each channel stands on the wait list at most once. -/
  once : s.queue.waitList.Nodup
  /-- A channel holds a pending event exactly when it stands on the wait list. -/
  waiting : ∀ n, n ∈ s.queue.waitList ↔ (s.channel n).pendingEvent.isSome
  /-- The wait list is non-empty only while the queue holds 24 records. -/
  full : s.queue.waitList ≠ [] → s.queue.records.length = 24

/-- A held fault is an unlogged record (R1). -/
def isUnlogged : Option HeldFault → Bool
  | some (.unlogged _) => true
  | _ => false

/-- The record under way is a ring record for channel `n` (R135). -/
def ringRecordFor (s : State) (n : ChannelNo) : Bool :=
  match s.log.underWay with
  | some u => u.target == .channel n
  | none => false

/-- The fault records and the fault order list (R12, R133, R137). -/
structure FaultInv (s : State) : Prop where
  /-- A channel holds a fault record exactly while it is FAULTED. -/
  held : ∀ n, (s.channel n).state = .faulted ↔ (s.channel n).fault.isSome
  /-- Each channel stands on the fault order list at most once. -/
  once : s.log.faultOrder.Nodup
  /-- A channel stands on the list exactly while its record is unlogged. -/
  listed : ∀ n, n ∈ s.log.faultOrder ↔ isUnlogged (s.channel n).fault
  /-- A ring record under way is that of the head of the list, in a log that is not OFF. -/
  head : ∀ n, ringRecordFor s n → s.log.faultOrder.head? = some n ∧ s.log.state ≠ .off

/-- The slot and the room that a record under way needs (R136, R137, R144). -/
def underWayFits (l : LogWriter) : Bool :=
  match l.underWay with
  | none => true
  | some u =>
    l.state == .running &&
      match u.target with
      | .channel _ => decide (l.unconsumed < l.capacity) && u.slot == l.writeIndex.setWidth 11
      | .overflow _ => u.slot == l.capacity

/-- The log writer (R134, R135, R136, R139). -/
structure LogInv (s : State) : Prop where
  /-- The region lies in the physical space, with a base that is a multiple of 4. -/
  region : s.log.base.toNat % 4 = 0 ∧ s.log.base.toNat + 4 * (s.log.capacity.toNat + 1) ≤ 2 ^ 24
  /-- The capacity is 0, or 2 to 1024. -/
  capacity : s.log.capacity = 0 ∨ 2 ≤ s.log.capacity.toNat ∧ s.log.capacity.toNat ≤ 1024
  /-- Only an OFF log has no region. -/
  set : s.log.state ≠ .off → s.log.capacity ≠ 0
  /-- W is a slot of the ring. -/
  index : s.log.writeIndex = 0 ∨ s.log.writeIndex.toNat < s.log.capacity.toNat
  /-- U never exceeds C. -/
  used : s.log.unconsumed ≤ s.log.capacity
  /-- The log is FULL only while U equals C. -/
  full : s.log.state = .full → s.log.unconsumed = s.log.capacity
  /-- The sequence number 0 is never used. -/
  sequence : s.log.nextSequence ≠ 0
  /-- A record is under way only in RUNNING, in its own slot and with room. -/
  fits : underWayFits s.log

/-- The words of a channel's block and its transaction in flight are in account (R56): for INBOUND, the
words taken are the words written plus the words staged; for OUTBOUND, the words given plus the words
staged are at most the words read, the words read plus the one in flight at most the count, and none is
staged in a block ended short (R67). -/
def blockAccount (s : State) (n : ChannelNo) (d : Transfer) : Prop :=
  let c := s.channel n
  let inFlight := if s.channelInFlight n then 1 else 0
  match d.direction with
  | .inbound =>
    c.exchanged.toNat = c.memoryCount.toNat + c.staging.length ∧ c.exchanged ≤ d.count ∧
      c.staging.length ≤ 4
  | .outbound =>
    c.exchanged.toNat + c.staging.length ≤ c.memoryCount.toNat ∧
      c.memoryCount.toNat + inFlight ≤ d.count.toNat ∧
      c.staging.length + (if c.short then 0 else inFlight) ≤ 4 ∧
      (c.short = true → c.staging = [])

/-- A state in which a channel works on its block or is halted in it (R55, R56). -/
def inBlock : ChannelState → Bool
  | .running | .halting | .halted => true
  | _ => false

/-- The contents that a state calls for (R1, R5, R8, R18, R38). -/
def contentsFit (c : Channel) : Bool :=
  match c.state, c.resume, c.contents with
  | .running, none, some (.transfer _) => true
  | .settling _, none, some (.transfer _) => true
  | .holding, none, some (.transfer _) => true
  | .halting, some .running, some (.transfer _) => true
  | .halting, some .fetching, none => true
  | .halted, some .running, some (.transfer _) => true
  | .halted, some .fetching, none => true
  | .fetching, none, none => true
  | .faulted, none, _ => true
  | .idle, none, none => true
  | .disabled, none, none => true
  | .aborting, none, none => true
  | _, _, _ => false

/-- A transaction of channel `n` in flight fits the state of its channel (R96, R107). One to be delivered
stands in FETCHING, RUNNING or HALTING, and is of the kind that the channel's descriptor calls for; one
that has become DISCARD while the channel is in a block is the read of an OUTBOUND block ended short. -/
def transactionFits (c : Channel) (t : Transaction) : Bool :=
  match t.delivery, t.purpose, c.state, c.contents with
  | .deliver, .descRead _, .fetching, _ => decide (c.fetchProgress < 4)
  | .deliver, .descRead _, .halting, none => decide (c.fetchProgress < 4)
  | .deliver, .dataWrite .., .running, some (.transfer d) =>
    d.direction == .inbound && !c.staging.isEmpty
  | .deliver, .dataWrite .., .halting, some (.transfer d) =>
    d.direction == .inbound && !c.staging.isEmpty
  | .deliver, .dataRead .., .running, some (.transfer d) => d.direction == .outbound && !c.short
  | .deliver, .dataRead .., .halting, some (.transfer d) => d.direction == .outbound && !c.short
  | .deliver, _, _, _ => false
  | .discard, .dataRead .., .running, some (.transfer d) => d.direction == .outbound && c.short
  | .discard, .dataRead .., .halting, some (.transfer d) => d.direction == .outbound && c.short
  | .discard, _, .running, _ => false
  | .discard, _, .halting, some _ => false
  | .discard, _, .halted, _ => false
  | .discard, _, _, _ => true
  | .orphan, _, _, _ => true

/-- The staging queues and the word counts (R55, R56, R96, R107). -/
structure AccountInv (s : State) : Prop where
  /-- Each state has the descriptor contents and the resume state it calls for. -/
  contents : ∀ n, contentsFit (s.channel n)
  /-- Words are staged only in a block. -/
  staged : ∀ n, (s.channel n).staging ≠ [] →
    inBlock (s.channel n).state ∧ (s.channel n).contents.isSome
  /-- The counters keep account of every word. -/
  account : ∀ n d, inBlock (s.channel n).state → (s.channel n).contents = some (.transfer d) →
    blockAccount s n d
  /-- The transaction in flight fits the state of its channel. -/
  fits : ∀ n t, s.port.inFlight = some t → t.purpose.requester = some n →
    transactionFits (s.channel n) t

/-- The command in progress is `cmd` on channel `n` (R162). -/
def commandOn (s : State) (cmd : HostCommand) (n : ChannelNo) : Bool :=
  match s.command.inProgress with
  | none => false
  | some l => l.command == cmd && l.a.toNat == n.val

/-- What a command in progress waits for (R167). -/
def waitsFor (s : State) (l : Latched) : Bool :=
  match l.command with
  | .halt =>
    (s.channel (channelOfOperand l.a)).state == .halting && isChannel l.a &&
      (s.channelInFlight (channelOfOperand l.a) ||
        (s.channel (channelOfOperand l.a)).pendingEvent.isSome)
  | .abort =>
    (s.channel (channelOfOperand l.a)).state == .aborting && isChannel l.a &&
      s.channelInFlight (channelOfOperand l.a)
  | .loadMap => s.loader.isSome
  | .writeEntry => s.entryInUse (setOfOperand l.a) (pageOfOperand l.b)
  | .logStop => s.log.underWay.isSome
  | _ => false

/-- The command port (R162, R167): a command in progress is one of the five long commands and waits for
what its rule names, and a channel in HALTING or ABORTING and a load have their command in progress. -/
structure BusyInv (s : State) : Prop where
  waits : ∀ l, s.command.inProgress = some l → waitsFor s l
  halting : ∀ n, (s.channel n).state = .halting → commandOn s .halt n
  aborting : ∀ n, (s.channel n).state = .aborting →
    commandOn s .abort n ∧ (s.channel n).pendingEvent = none
  loading : s.loader.isSome → ∃ l, s.command.inProgress = some l ∧ l.command = .loadMap

/-- The loader record fits its set and its image (R73, R83, R86). -/
def loaderFits (s : State) (l : Loader) : Bool :=
  decide (l.progress < l.newLimit) && decide (l.newLimit.toNat ≤ 64) &&
    decide (l.source.toNat + l.newLimit.toNat ≤ 2 ^ 24) && (s.mapSet l.set).state == .loading

/-- A WRITE ENTRY in progress names a page below the limit of its set (R83, R90). -/
def writeEntryFits (s : State) (l : Latched) : Bool :=
  l.command != .writeEntry ||
    decide ((pageOfOperand l.b).val < (s.mapSet (setOfOperand l.a)).limit.toNat)

/-- A transaction in flight beside a load: none through the set of a load in READING, and a map image read
to be delivered only for a load in READING (R84, R85, R86). -/
def transactionBeside (s : State) (t : Transaction) : Bool :=
  match s.loader with
  | none => t.purpose != .mapRead || t.delivery != .deliver
  | some l =>
    match l.phase with
    | .draining => t.purpose != .mapRead || t.delivery != .deliver
    | .reading => !t.throughSet l.set

/-- The map sets and the loader (R73, R76, R95). -/
structure SetsInv (s : State) : Prop where
  /-- The limit of every set is 1 to 64. -/
  limit : ∀ m, 1 ≤ (s.mapSet m).limit.toNat ∧ (s.mapSet m).limit.toNat ≤ 64
  /-- At most one set is LOADING, and it is the one the loader record names. -/
  loading : ∀ m, (s.mapSet m).state = .loading → s.loader.map Loader.set = some m
  /-- The loader record fits its set and its image. -/
  loader : ∀ l, s.loader = some l → loaderFits s l
  /-- The transaction in flight stands beside the load. -/
  beside : ∀ t, s.port.inFlight = some t → transactionBeside s t
  /-- A load has LOAD MAP in progress. -/
  command : s.loader.isSome → ∃ l, s.command.inProgress = some l ∧ l.command = .loadMap
  /-- A WRITE ENTRY that waits names a page below the limit. -/
  writeEntry : ∀ l, s.command.inProgress = some l → writeEntryFits s l
  /-- Every entry at or above the limit of a READY set is invalid. -/
  beyond : ∀ m (p : PageNo), (s.mapSet m).state = .ready → (s.mapSet m).limit.toNat ≤ p.val →
    ((s.mapSet m).entry p).valid = false
  /-- Entries of a load in READING at or above its progress are cleared. -/
  cleared : ∀ l (p : PageNo), s.loader = some l → l.phase = .reading → l.progress.toNat ≤ p.val →
    (s.mapSet l.set).entry p = PageEntry.cleared

/-- The interrupt unit: EVENTS has the level of R125 and INTOUT that of R129. -/
structure InterruptInv (s : State) : Prop where
  events : s.interrupts.events = eventsLevel s.queue
  intout : s.interrupts.intout = intoutLevel s.control s.interrupts

/-- A state in which every request is answered on its arrival (R53, R54). -/
def answersAtOnce : ChannelState → Bool
  | .disabled | .idle | .aborting | .faulted => true
  | _ => false

/-- The slots (R50, R51, R53, R54). -/
structure SlotInv (s : State) : Prop where
  /-- Answer valid is raised only while request valid is, and then no request stands. -/
  answer : ∀ n, (s.slot n).answerValid → (s.slot n).lines.isSome ∧ (s.channel n).request = none
  /-- A request is kept only until answer valid falls. -/
  early : ∀ n, (s.slot n).early.isSome → (s.slot n).answerValid
  /-- No request stands in a state that answers every request on its arrival. -/
  none : ∀ n, answersAtOnce (s.channel n).state → (s.channel n).request = none
  /-- A FAIL never stands. -/
  fail : ∀ n, (s.channel n).request ≠ some .fail

/-- The stall counters (R158): none exceeds its limit, and the counter of a RUNNING channel with
supervision on stands below it. -/
structure StallInv (s : State) : Prop where
  bound : ∀ n, (s.channel n).stallCounter ≤ (s.channel n).stallLimit
  running : ∀ n, (s.channel n).state = .running → (s.channel n).stallLimit ≠ 0 →
    (s.channel n).stallCounter < (s.channel n).stallLimit

/-- A channel is fetching, or halted in a fetch (R18, R32). -/
def inFetch (c : Channel) : Bool :=
  match c.state, c.resume with
  | .fetching, _ => true
  | .halting, some .fetching => true
  | .halted, some .fetching => true
  | _, _ => false

/-- The fetches (R1, R29, R32, R40): the words kept are as many as the fetch progress, a channel reads at a
multiple of 4, and no link-only run exceeds 12. -/
structure FetchInv (s : State) : Prop where
  words : ∀ n, inFetch (s.channel n) → (s.channel n).fetched.length = (s.channel n).fetchProgress.toNat
  progress : ∀ n, (s.channel n).state = .fetching → (s.channel n).fetchProgress < 4
  aligned : ∀ n, inFetch (s.channel n) → aligned4 (s.channel n).descAddr
  run : ∀ n, (s.channel n).linkOnlyRun ≤ 12

/-- Ranges that the rules give single registers (R102, R123, R124, R153). -/
structure RangeInv (s : State) : Prop where
  streak : s.port.streakLength ≤ 8
  headAge : s.queue.records = [] → s.queue.headAge = 0
  threshold : 1 ≤ s.queue.threshold ∧ s.queue.threshold ≤ 24
  period : s.timer.period ≠ 0
  prescaler : s.timer.prescaler < s.timer.period

/-- The request standing on a slot has its answer (or its fault) due in the state of its channel: the table
of R51, R53, R54, R57, R63 and R65. -/
def requestDue (c : Channel) : Bool :=
  match c.request with
  | none => false
  | some r =>
    match c.state, c.contents with
    | .running, some (.transfer d) =>
      match d.direction with
      | .inbound =>
        match r with
        | .offer _ => decide (c.exchanged < d.count) && !c.short && decide (c.staging.length < 4)
        | _ => true
      | .outbound =>
        match r with
        | .ask => !c.staging.isEmpty
        | _ => true
    | _, _ => answersAtOnce c.state || r == .fail

/-- Nothing that comes about inside an event is left due at its end: no settling, halting or aborting
channel that could go on, no complete block, no request whose answer is due, no drain, rewrite or LOG STOP
to end, no record to begin, and no grant to make (R10, R19, R25, R41, R52, R69, R85, R91, R100, R137, R144,
R148). -/
structure NothingDue (s : State) : Prop where
  settling : ∀ n, resumedStep s n = none
  halting : ∀ n, leaveHaltingDue s n = false
  aborting : ∀ n, leaveAbortingDue s n = false
  block : ∀ n, completedBlock s n = none
  request : ∀ n, requestDue (s.channel n) = false
  drain : drainedLoad s = none
  rewrite : releasedWriteEntry s = none
  logStop : logStopDue s = false
  ring : ringRecordDue s = none
  overflow : overflowRecordDue s = none
  grant : canGrant s = true → mapRequest s = none ∧ logRequest s = none ∧ eligibleChannels s = []

/-! ### The words of the claims -/

/-- The row of a host command. -/
def commandInstr : HostCommand → Instr
  | .bind => .bind
  | .unbind => .unbind
  | .start => .start
  | .halt => .halt
  | .continueChannel => .continueChannel
  | .abort => .abort
  | .clearFault => .clearFault
  | .readChannel => .readChannel
  | .loadMap => .loadMap
  | .writeEntry => .writeEntry
  | .readEntry => .readEntry
  | .probe => .probe
  | .setLog => .setLog
  | .logStop => .logStop
  | .logConsumed => .logConsumed

/-- The commands that reset the part: RESETIN, and a write to CONTROL with bit 31 set (R2, R174). -/
def isReset : Instr → Bool
  | .powerOnReset => true
  | .softReset _ => true
  | .masterEnable w => w.getLsbD 31
  | .interruptEnable w => w.getLsbD 31
  | .registerWrite offset w => offset == 1 && w.getLsbD 31
  | _ => false

/-- The commands that are a write to COMMAND (R163 to R165). -/
def writesCommand : Instr → Bool
  | .bind | .unbind | .start | .halt | .continueChannel | .abort | .clearFault | .readChannel => true
  | .loadMap | .writeEntry | .readEntry | .probe | .setLog | .logStop | .logConsumed => true
  | .unknownCommand _ => true
  | .registerWrite offset _ => offset == 4
  | _ => false

/-- The command port is IDLE (R162). -/
def PortIdle (s : State) : Prop := s.command.inProgress = none

/-- Slot `n` is free for a request (R50). -/
def FreeSlot (s : State) (n : ChannelNo) : Prop :=
  (s.slot n).answerValid = false ∧ (s.channel n).request = none

/-- A slot on which `r` has arrived and has been answered with `a` (R50). -/
def answeredSlot (l : Slot) (r : LinkRequest) (a : Answer) : Slot :=
  { l with lines := some r, answer := some a, answerValid := true }

/-- A slot after what stood on it, if anything did, has been turned away: REFUSE to OFFER and ASK, ACK to
END and FAIL (R11, R24, R53, R54). -/
def turnedAwaySlot (l : Slot) (r : Option LinkRequest) : Slot :=
  match r with
  | none => l
  | some q =>
    { l with
      answer := some
        (match q with | .offer _ => .refuse | .ask => .refuse | .endBlock => .ack | .fail => .ack)
      answerValid := l.lines.isSome }

/-- The part after the request that waited on slot `n` has been answered with `a` on a later event, the record of
the channel becoming `c`: answer valid is raised only while request valid still is (R50). -/
def answeredWaiting (s : State) (n : ChannelNo) (a : Answer) (c : Channel) : State :=
  (s.putChannel n c).putSlot n
    { s.slot n with answer := some a, answerValid := (s.slot n).lines.isSome }

/-- The port after channel `n` has abandoned its transaction: one of its own that would be delivered
becomes DISCARD (R96). -/
def abandonedPort (n : ChannelNo) (p : Port) : Port :=
  { p with inFlight := p.inFlight.map fun t =>
      if t.purpose.requester = some n ∧ t.delivery = .deliver then { t with delivery := .discard }
      else t }

/-- The part after a command has been accepted with `code` and has completed with `r` and the result words
`x`, `y`, `z` on the event of its write (R163, R166). -/
def afterCommand (code : BitVec 8) (r : ResultCode) (x y z : Word) (s : State) : State :=
  { s with
    command := { s.command with
      inProgress := none
      lastResult := r
      refused := false
      lastCode := code
      result0 := x
      result1 := y
      result2 := z }
    interrupts := { s.interrupts with command := true } }

/-- The part after a command has been accepted and stays in progress (R163). -/
def duringCommand (cmd : HostCommand) (s : State) : State :=
  { s with command := { s.command with
      inProgress := some
        { command := cmd, a := s.command.operandA, b := s.command.operandB, c := s.command.operandC }
      refused := false
      lastCode := hostCommandCode cmd
      result0 := 0
      result1 := 0
      result2 := 0 } }

/-- The command in progress completes with `r` on a later event (R166). -/
def commandEnded (r : ResultCode) (s : State) : State :=
  { s with
    command := { s.command with inProgress := none, lastResult := r }
    interrupts := { s.interrupts with command := true } }

/-- The operand ranges that the owners of the commands give (R14 to R17, R83, R147, R149). -/
def LegalOperands (cmd : HostCommand) (s : State) : Prop :=
  match cmd with
  | .bind =>
    s.command.operandA.toNat < 16 ∧ s.command.operandB.toNat < 8 ∧ s.command.operandC.toNat ≤ 255
  | .unbind | .halt | .continueChannel | .abort | .clearFault | .readChannel =>
    s.command.operandA.toNat < 16
  | .start =>
    s.command.operandA.toNat < 16 ∧ s.command.operandB.toNat < 2 ^ 24 ∧
      s.command.operandB.toNat % 4 = 0
  | .loadMap =>
    s.command.operandA.toNat < 8 ∧ s.command.operandB.toNat < 2 ^ 24 ∧
      1 ≤ s.command.operandC.toNat ∧ s.command.operandC.toNat ≤ 64 ∧
      s.command.operandB.toNat + s.command.operandC.toNat ≤ 2 ^ 24
  | .writeEntry =>
    s.command.operandA.toNat < 8 ∧
      s.command.operandB.toNat < (s.mapSet (setOfOperand s.command.operandA)).limit.toNat ∧
      s.command.operandB.toNat < 64
  | .readEntry => s.command.operandA.toNat < 8 ∧ s.command.operandB.toNat ≤ 63
  | .probe =>
    s.command.operandA.toNat < 8 ∧ s.command.operandB.toNat ≤ 262143 ∧
      (s.command.operandC.toNat = 1 ∨ s.command.operandC.toNat = 2)
  | .setLog =>
    s.command.operandA.toNat % 4 = 0 ∧ s.command.operandA.toNat < 2 ^ 24 ∧
      2 ≤ s.command.operandB.toNat ∧ s.command.operandB.toNat ≤ 1024 ∧
      s.command.operandA.toNat + 4 * (s.command.operandB.toNat + 1) ≤ 2 ^ 24
  | .logStop => True
  | .logConsumed => 1 ≤ s.command.operandA.toNat ∧ s.command.operandA.toNat ≤ 1024

/-- The state check of a channel command in the state of its channel, and of a log command in that of the
log, fails with `r` (R15 to R18, R22, R24, R27, R147 to R149). -/
def CheckFails (cmd : HostCommand) (c : Channel) (s : State) (r : ResultCode) : Prop :=
  match cmd with
  | .bind => r = .badState ∧ c.state ≠ .disabled ∧ c.state ≠ .idle
  | .unbind => r = .badState ∧ (c.state ≠ .idle ∨ c.pendingEvent ≠ none)
  | .start => r = .badState ∧ c.state ≠ .idle
  | .halt => r = .badState ∧ c.state ≠ .fetching ∧ c.state ≠ .running
  | .continueChannel =>
    r = .badState ∧ c.state ≠ .halted ∧ c.state ≠ .fetching ∧ c.state ≠ .holding
  | .abort =>
    r = .badState ∧ (c.state = .disabled ∨ c.state = .idle ∨ c.state = .halting ∨
      c.state = .aborting ∨ c.state = .faulted)
  | .clearFault =>
    (r = .badState ∧ c.state ≠ .faulted) ∨
      (r = .faultPending ∧ c.state = .faulted ∧ isUnlogged c.fault = true ∧ s.log.state ≠ .off)
  | .setLog => r = .badState ∧ s.log.state ≠ .off
  | .logStop => r = .badState ∧ s.log.state = .off
  | .logConsumed => r = .underrun ∧ s.log.unconsumed.toNat < s.command.operandA.toNat
  | .readChannel | .loadMap | .writeEntry | .readEntry | .probe => False

/-- A channel as it stands in FAULTED after a fault of kind `k` detected in `s` (R11, R132). -/
def faultedChannel (s : State) (n : ChannelNo) (k : FaultKind) : Channel :=
  { s.channel n with
    state := .faulted
    request := none
    fetched := []
    resume := none
    staging := []
    fault := some (.unlogged
      { kind := k
        channel := n
        descAddr := (s.channel n).descAddr
        logical := match (s.channel n).contents with
          | some (.transfer d) => d.start.setWidth 19 + (s.channel n).memoryCount.setWidth 19
          | _ => 0
        wordsDone := match (s.channel n).contents with
          | some (.transfer d) =>
            if d.direction = .inbound then (s.channel n).memoryCount else (s.channel n).exchanged
          | _ => (s.channel n).exchanged
        stamp := s.timer.tickCount }) }

/-- The words done of the current descriptor: memory count for INBOUND, exchanged for OUTBOUND (R1). -/
def wordsDone (c : Channel) (d : Transfer) : BitVec 16 :=
  if d.direction = .inbound then c.memoryCount else c.exchanged

/-- The record that channel `n` posts (R9, R112). -/
def postedRecord (s : State) (n : ChannelNo) (k : EventKind) (words : BitVec 16) : EventRecord where
  kind := k
  channel := n
  descAddr := (s.channel n).descAddr
  wordsDone := words
  stamp := s.timer.tickCount

/-- A channel is ready for its peripheral (R157). -/
def Ready (c : Channel) : Prop :=
  c.state = .running ∧
    match c.contents with
    | some (.transfer d) =>
      match d.direction with
      | .inbound => c.staging.length < 4 ∧ c.exchanged < d.count ∧ c.short = false
      | .outbound => c.staging ≠ []
    | _ => False

/-- The request `r` waits unanswered in the state of the channel (R53, R54, R57, R63). -/
def Waits (c : Channel) (r : LinkRequest) : Prop :=
  r ≠ .fail ∧
    match c.state, c.contents with
    | .fetching, _ => True
    | .settling _, _ => True
    | .holding, _ => True
    | .halting, _ => True
    | .halted, _ => True
    | .running, some (.transfer d) =>
      match d.direction with
      | .inbound =>
        match r with
        | .offer _ => d.count ≤ c.exchanged ∨ c.short = true ∨ 4 ≤ c.staging.length
        | _ => False
      | .outbound =>
        match r with
        | .ask => c.staging = []
        | _ => False
    | _, _ => False

/-- The arbiter's choice in the channel class: an eligible request of a channel that no lower eligible
channel stands before but a yielding one, and that is not yielding unless it is alone (R101). -/
def Chosen (s : State) (n : ChannelNo) : Prop :=
  (∀ m, m < n → eligibleRequest s m ≠ none → yielding s m = true) ∧
    (yielding s n = true → ∀ m, m ≠ n → eligibleRequest s m = none)

/-- The fairness record after a grant to channel `n` that issues a transaction (the table of R102).
`competing` says that another channel had an eligible request at the grant. -/
def streakRecord (p : Port) (n : ChannelNo) (competing : Bool) : Port :=
  { p with
    streakOwner := some n
    streakLength :=
      if p.streakOwner = some n then
        if competing = true ∧ p.streakLength < 8 then p.streakLength + 1 else p.streakLength
      else 1 }

/-! ### The frame of the end of an event -/

/-- Between `s` and `t` a data request of channel `n` was granted and refused at translation, and nothing
else of its record changed (R11, R79). -/
def FaultedAtGrant (s t : State) (n : ChannelNo) : Prop :=
  (s.channel n).state = .running ∧
    (t.channel n = faultedChannel s n .pageInvalid ∨ t.channel n = faultedChannel s n .pageBeyond ∨
      t.channel n = faultedChannel s n .readDenied ∨ t.channel n = faultedChannel s n .writeDenied) ∧
    t.slot n = turnedAwaySlot (s.slot n) (s.channel n).request

/-- What the end of an event (a drain or a rewrite ended, the log writer's turn, the grant, the interrupt
levels: R106, R137, R100, R125, R129) can change between `s` and `t`; all else is unchanged. -/
structure EventEnd (s t : State) : Prop where
  /-- The event queue, the timer, CONTROL, the read data, the commands that wait and the draws. -/
  queue : t.queue = s.queue
  timer : t.timer = s.timer
  control : t.control = s.control
  model : t.readData = s.readData ∧ t.tickDraws = s.tickDraws ∧ t.pending = s.pending
  /-- A channel and its slot change only by a refused grant. -/
  channel : ∀ n, (t.channel n = s.channel n ∧ t.slot n = s.slot n) ∨ FaultedAtGrant s t n
  /-- No grant is made while the port is busy or the master enable is clear (R100, R109). -/
  noGrant : s.port.inFlight ≠ none ∨ s.control.masterEnable = false →
    t.port = s.port ∧ ∀ n, t.channel n = s.channel n
  /-- The command port changes only where a waiting WRITE ENTRY or LOG STOP ends. -/
  command : t.command = s.command ∨
    (releasedWriteEntry s ≠ none ∨ logStopDue s = true) ∧
      ∃ r, t.command = { s.command with inProgress := none, lastResult := r }
  /-- The log keeps its region and its counts. It enters OFF only where a LOG STOP ends, channels join its
  list at the tail only, and a record under way stays. -/
  log : t.log.base = s.log.base ∧ t.log.capacity = s.log.capacity ∧
    t.log.writeIndex = s.log.writeIndex ∧ t.log.unconsumed = s.log.unconsumed ∧
    t.log.nextSequence = s.log.nextSequence
  logState : t.log.state = s.log.state ∨ logStopDue s = true ∧ t.log.state = .off
  faultOrder : ∃ new, t.log.faultOrder = s.log.faultOrder ++ new ∧ ∀ n ∈ new, FaultedAtGrant s t n
  underWay : s.log.underWay ≠ none → t.log.underWay = s.log.underWay
  /-- A load changes only where its drain ends, and an entry only there, where a waiting WRITE ENTRY ends,
  or by its REFERENCED. -/
  loader : t.loader = s.loader ∨ drainedLoad s ≠ none
  sets : ∀ m, (t.mapSet m).state = (s.mapSet m).state ∧ (t.mapSet m).limit = (s.mapSet m).limit
  entries : ∀ m p, (t.mapSet m).entry p = (s.mapSet m).entry p ∨
    (t.mapSet m).entry p = { (s.mapSet m).entry p with referenced := true } ∨
    (drainedLoad s).map Loader.set = some m ∨
    (releasedWriteEntry s).map (fun l => (setOfOperand l.a, pageOfOperand l.b)) = some (m, p)
  /-- A latched cause stays latched, LOG does not latch, and EVENTS and INTOUT take their levels. -/
  latches : (s.interrupts.command = true → t.interrupts.command = true) ∧
    (s.interrupts.fault = true → t.interrupts.fault = true) ∧
    t.interrupts.log = s.interrupts.log
  levels : InterruptInv t

end Sys2Proof.Machine
end

