-- ==== Sys2Proof/Certificates/Slice0/Obligations.lean ====
section
/-! DEFINITION. The statements for the provers. An equation `exec c s = .next (finishEvent t)` says that the
command answers a next state: `t` is the effect of the command's own, written out field by field, and
`finishEvent` is what the part does at the end of every event (the rules' drain, rewrite, log writer, grant
and interrupt levels). What `finishEvent` can change is stated in `Obligations.EventEndFrame`; what
`finishChannelEvent n` adds to it for channel `n`, in `Obligations.ChannelGoesOn`. -/

open Sys2Proof Sys2Proof.Machine

/-! ### The machine, resets and the register window -/

/-- One step with a command at the front of the queue carries that command out with the queue's rest. The queue
and its order are the model's choice (log entry 1): the spec gives the outcome of each order in which events reach
the part (00_scope.md section 5, Simultaneous events), and the queue names one order. -/
def Obligations.StepRunsFrontCommand : Prop :=
  ∀ (s : State) (c : Instr) (rest : List Instr),
    step { s with pending := c :: rest } = exec c { s with pending := rest }

/-- RESETIN gives every block its power-on values (R2, R75, R97, R114, R128, R129, R135, R153, R162, R173).
A request still standing on a slot arrives and meets a DISABLED channel (R2, R50). That only a request on the
raised lines counts as still standing, so that one whose request valid was already lowered goes unanswered, and that
a slot whose answer is up keeps it, are the model's choices (log entry 10). -/
def Obligations.PowerOnResetValues : Prop :=
  ∀ (s : State), ∃ t, exec .powerOnReset s = .next t ∧
    (∀ n, t.channel n = Channel.reset) ∧
    (∀ n, t.slot n =
      if (s.slot n).answerValid then s.slot n else turnedAwaySlot (s.slot n) (s.slot n).lines) ∧
    (∀ m, (t.mapSet m).state = .ready ∧ (t.mapSet m).limit = 64) ∧
    (∀ m p, (t.mapSet m).entry p = PageEntry.cleared) ∧
    t.loader = none ∧
    t.port = { inFlight := none, streakOwner := none, streakLength := 0 } ∧
    t.queue = { records := [], headAge := 0, threshold := 1, delay := 0, waitList := [] } ∧
    t.log = LogWriter.reset ∧
    t.timer = { period := 1000, prescaler := 0, tickCount := 0 } ∧
    t.command = CommandPort.reset ∧
    t.interrupts = Interrupts.reset ∧
    t.control = Control.reset ∧
    t.pending = s.pending ∧ t.tickDraws = s.tickDraws

/-- A write to CONTROL with bit 31 set gives a soft reset, whatever its other bits (R174): READY sets are
kept and a LOADING one is cleared (R76), a transaction in flight is orphaned (R110), a standing request is
answered REFUSE whatever its kind (R2), and every other block takes its reset values. That the word last read
stays on its lines is the model's choice (log entry 10), and so is the reset for a word with bit 31 clear, which
is no command of this row (log entry 15). -/
def Obligations.SoftResetValues : Prop :=
  ∀ (s : State) (w : Word), ∃ t, exec (.softReset w) s = .next t ∧
    (∀ n, t.channel n = Channel.reset) ∧
    (∀ n, t.slot n =
      if (s.channel n).request = none then s.slot n
      else { s.slot n with answer := some .refuse, answerValid := (s.slot n).lines.isSome }) ∧
    (∀ m, (s.mapSet m).state = .ready → t.mapSet m = s.mapSet m) ∧
    (∀ m, (s.mapSet m).state = .loading → (t.mapSet m).state = .ready ∧ (t.mapSet m).limit = 64 ∧
      ∀ p, (t.mapSet m).entry p = PageEntry.cleared) ∧
    t.loader = none ∧
    t.port =
      { inFlight := s.port.inFlight.map fun x => { x with delivery := .orphan }
        streakOwner := none
        streakLength := 0 } ∧
    t.queue = { records := [], headAge := 0, threshold := 1, delay := 0, waitList := [] } ∧
    t.log = LogWriter.reset ∧
    t.timer = { period := 1000, prescaler := 0, tickCount := 0 } ∧
    t.command = CommandPort.reset ∧
    t.interrupts = Interrupts.reset ∧
    t.control = Control.reset ∧
    t.readData = s.readData ∧ t.pending = s.pending ∧ t.tickDraws = s.tickDraws

/-- A write to the window does what the row of its register does (R171). -/
def Obligations.WindowWrites : Prop :=
  ∀ (s : State) (offset : BitVec 5) (w : Word),
    (offset = 1 → w.getLsbD 31 = true → exec (.registerWrite offset w) s = exec (.softReset w) s) ∧
    (offset = 1 → w.getLsbD 31 = false →
      exec (.registerWrite offset w) s = exec (.masterEnable w) s ∧
        exec (.registerWrite offset w) s = exec (.interruptEnable w) s) ∧
    (offset = 2 → exec (.registerWrite offset w) s = exec (.interruptStatusClear w) s) ∧
    (offset = 4 → ∀ cmd, hostCommandCode cmd = w.setWidth 8 →
      exec (.registerWrite offset w) s = exec (commandInstr cmd) s) ∧
    (offset = 4 → (∀ cmd, hostCommandCode cmd ≠ w.setWidth 8) →
      exec (.registerWrite offset w) s = exec (.unknownCommand w) s) ∧
    (offset = 5 →
      exec (.registerWrite offset w) s = .next { s with command := { s.command with operandA := w } }) ∧
    (offset = 6 →
      exec (.registerWrite offset w) s = .next { s with command := { s.command with operandB := w } }) ∧
    (offset = 7 →
      exec (.registerWrite offset w) s = .next { s with command := { s.command with operandC := w } }) ∧
    (offset = 15 → exec (.registerWrite offset w) s = exec (.eventSettingsWrite w) s) ∧
    (offset = 19 → exec (.registerWrite offset w) s = exec (.timerPeriodWrite w) s) ∧
    (offset ∉ [1, 2, 4, 5, 6, 7, 15, 19] → exec (.registerWrite offset w) s = .next s)

/-- A write to CONTROL with bit 31 clear stores the five enables, which act on their owners on that event
(R100, R109, R129, R173). -/
def Obligations.ControlWrites : Prop :=
  ∀ (s : State) (w : Word), w.getLsbD 31 = false → ∀ t,
    t = { s with control :=
      { masterEnable := w.getLsbD 0
        eventsEnable := w.getLsbD 1
        commandEnable := w.getLsbD 2
        faultEnable := w.getLsbD 3
        logEnable := w.getLsbD 4 } } →
    exec (.masterEnable w) s = .next (finishEvent t) ∧
    exec (.interruptEnable w) s = .next (finishEvent t)

/-- What a read of each offset of the window returns (R4, R13, R95, R117, R122, R124, R128, R151, R156, R162,
R171 to R178, R182), with the numbers of the codes: the channel states, the log states and the commands (R177), the
event kinds (R112), the fault kinds (R131) and the results (R166). The bus request line, which no register shows, is
raised exactly while a transaction is in flight (R105). -/
def Obligations.WindowReads : Prop :=
  ∀ (s : State),
    windowRead s 0 = 0x27400110 ∧
    windowRead s 1 = 0#27 ++ BitVec.ofBool s.control.logEnable ++ BitVec.ofBool s.control.faultEnable ++
      BitVec.ofBool s.control.commandEnable ++ BitVec.ofBool s.control.eventsEnable ++
      BitVec.ofBool s.control.masterEnable ∧
    windowRead s 2 = 0#27 ++ BitVec.ofBool s.interrupts.log ++ BitVec.ofBool s.interrupts.fault ++
      BitVec.ofBool s.interrupts.command ++ BitVec.ofBool s.interrupts.events ++ 0#1 ∧
    (∀ n : ChannelNo, (windowRead s 3).getLsbD n.val = ((s.channel n).state == .faulted)) ∧
    (windowRead s 3).extractLsb' 16 16 = 0 ∧
    windowRead s 4 = 0#24 ++ s.command.lastCode ∧
    windowRead s 5 = s.command.operandA ∧ windowRead s 6 = s.command.operandB ∧
    windowRead s 7 = s.command.operandC ∧
    windowRead s 8 = 0#8 ++ s.command.lastCode ++ 0#4 ++ s.command.lastResult.code ++ 0#6 ++
      BitVec.ofBool s.command.refused ++ BitVec.ofBool s.command.inProgress.isSome ∧
    windowRead s 9 = s.command.result0 ∧ windowRead s 10 = s.command.result1 ∧
    windowRead s 11 = s.command.result2 ∧
    (s.queue.records = [] → windowRead s 12 = 0 ∧ windowRead s 13 = 0) ∧
    (∀ r rest, s.queue.records = r :: rest →
      windowRead s 12 = r.kind.code ++ BitVec.ofNat 4 r.channel.val ++ r.descAddr ∧
        windowRead s 13 = r.stamp ++ r.wordsDone) ∧
    windowRead s 14 = 0#8 ++ s.queue.headAge ++ 0#3 ++ BitVec.ofNat 5 s.queue.waitList.length ++ 0#3 ++
      BitVec.ofNat 5 s.queue.records.length ∧
    windowRead s 15 = 0#16 ++ s.queue.delay ++ s.queue.threshold ∧
    windowRead s 16 = 0#5 ++ s.log.unconsumed ++ 0#14 ++ s.log.state.code ∧
    windowRead s 17 = s.log.nextSequence ++ 0#6 ++ s.log.writeIndex ∧
    windowRead s 18 = 0#16 ++ s.timer.tickCount ∧
    windowRead s 19 = 0#16 ++ s.timer.period ∧
    (∀ n : ChannelNo, n.val < 8 →
      (windowRead s 20).extractLsb' (4 * n.val) 4 = (s.channel n).state.code) ∧
    (∀ n : ChannelNo, 8 ≤ n.val →
      (windowRead s 21).extractLsb' (4 * (n.val - 8)) 4 = (s.channel n).state.code) ∧
    (∀ m : SetNo, (windowRead s 22).getLsbD m.val = ((s.mapSet m).state == .loading)) ∧
    (windowRead s 22).extractLsb' 8 24 = 0 ∧
    (∀ offset : BitVec 5, 23 ≤ offset.toNat → windowRead s offset = 0) ∧
    (busRequest s = true ↔ s.port.inFlight ≠ none) ∧
    (∀ step, [.disabled, .idle, .fetching, .running, .settling step, .holding, .halting, .halted, .aborting,
      .faulted].map ChannelState.code = [0, 1, 2, 3, 4, 5, 6, 7, 8, 9]) ∧
    [.off, .running, .full, .error].map LogState.code = [0, 1, 2, 3] ∧
    [.done, .short, .chainEnd, .held, .halted, .aborted].map EventKind.code = [1, 2, 3, 4, 5, 6] ∧
    [.pageInvalid, .pageBeyond, .readDenied, .writeDenied, .descFormat, .chainLimit, .busError, .stallTimeout,
      .periphFail, .linkProtocol].map FaultKind.code = [1, 2, 3, 4, 5, 6, 7, 8, 9, 10] ∧
    [.ok, .badCommand, .badOperand, .badState, .busError, .underrun, .faultPending].map ResultCode.code =
      [0, 1, 2, 3, 4, 5, 6] ∧
    [.bind, .unbind, .start, .halt, .continueChannel, .abort, .clearFault, .readChannel].map hostCommandCode =
      [0x01, 0x02, 0x03, 0x04, 0x05, 0x06, 0x07, 0x08] ∧
    [.loadMap, .writeEntry, .readEntry, .probe].map hostCommandCode = [0x10, 0x11, 0x12, 0x13] ∧
    [.setLog, .logStop, .logConsumed].map hostCommandCode = [0x20, 0x21, 0x22]

/-! ### The interrupt unit and the event queue -/

/-- A write to INTERRUPT STATUS clears each latched cause whose bit is 1 and keeps the others; EVENTS is not
looked at and INTOUT follows (R127, R129, R175). AGE CONDITION raises EVENTS while the age condition holds
(R125), and does nothing otherwise (the model's choice, log entry 2). -/
def Obligations.InterruptCauses : Prop :=
  ∀ (s : State) (w : Word),
    exec (.interruptStatusClear w) s = .next { s with interrupts :=
      { events := eventsLevel s.queue
        command := s.interrupts.command && !w.getLsbD 2
        fault := s.interrupts.fault && !w.getLsbD 3
        log := s.interrupts.log && !w.getLsbD 4
        intout :=
          (eventsLevel s.queue && s.control.eventsEnable) ||
            (s.interrupts.command && !w.getLsbD 2 && s.control.commandEnable) ||
            (s.interrupts.fault && !w.getLsbD 3 && s.control.faultEnable) ||
            (s.interrupts.log && !w.getLsbD 4 && s.control.logEnable) } } ∧
    (s.queue.delay ≠ 0 → s.queue.records ≠ [] → s.queue.delay ≤ s.queue.headAge →
      exec .ageCondition s = .next { s with interrupts := { s.interrupts with
        events := true
        intout := s.control.eventsEnable || (s.interrupts.command && s.control.commandEnable) ||
          (s.interrupts.fault && s.control.faultEnable) ||
          (s.interrupts.log && s.control.logEnable) } }) ∧
    ((s.queue.delay = 0 ∨ s.queue.records = [] ∨ s.queue.headAge < s.queue.delay) →
      exec .ageCondition s = .next s)

/-- A read of EVENT WORD 1 with the queue empty returns 0 and changes nothing else (R119). A post that
is taken before the read is popped by it, and leaves the queue empty again; one that is taken after it becomes
the head. -/
def Obligations.PopOfEmptyQueue : Prop :=
  ∀ (s : State), s.queue.records = [] →
    exec .pop s = .next { s with readData := 0 } ∧
    ∀ r : EventRecord, s.queue.waitList = [] →
      exec .pop { s with queue := { s.queue with records := [r], headAge := 0 } } =
        .next (refreshInterrupts { s with
          readData := r.stamp ++ r.wordsDone
          queue := { s.queue with records := [], headAge := 0 } }) ∧
    ∀ (n : ChannelNo) (k : EventKind) (words : BitVec 16),
      (makePost n k words { s with readData := 0 }).queue.records = [postedRecord s n k words]

/-- A pop of a non-empty queue returns the second word of the head and removes it, sets the head age to 0, and
moves the pending event of the oldest waiter to the tail; that waiter then goes on (R118). -/
def Obligations.PopRemovesHead : Prop :=
  ∀ (s : State) (r : EventRecord) (rest : List EventRecord), s.queue.records = r :: rest →
    (s.queue.waitList = [] →
      exec .pop s = .next (refreshInterrupts { s with
        readData := r.stamp ++ r.wordsDone
        queue := { s.queue with records := rest, headAge := 0 } })) ∧
    (∀ (n : ChannelNo) (others : List ChannelNo) (p : EventRecord),
      s.queue.waitList = n :: others → (s.channel n).pendingEvent = some p →
      exec .pop s = .next (finishChannelEvent n
        { s.putChannel n { s.channel n with pendingEvent := none } with
          readData := r.stamp ++ r.wordsDone
          queue := { s.queue with records := rest ++ [p], headAge := 0, waitList := others } }))

/-- A write to EVENT SETTINGS stores the threshold, 0 as 1 and above 24 as 24, and the delay as written;
EVENTS is evaluated afresh, and neither the queue nor the head age changes. A read returns the stored values,
and both resets leave the threshold 1 and the delay 0 (R124). -/
def Obligations.EventSettingsStored : Prop :=
  ∀ (s : State) (w : Word),
    exec (.eventSettingsWrite w) s = .next (refreshInterrupts { s with queue := { s.queue with
      threshold :=
        if (w.extractLsb' 0 8).toNat = 0 then 1
        else if 24 < (w.extractLsb' 0 8).toNat then 24 else w.extractLsb' 0 8
      delay := w.extractLsb' 8 8 } }) ∧
    windowRead s 15 = 0#16 ++ s.queue.delay ++ s.queue.threshold ∧
    (refreshInterrupts s).interrupts.events =
      (decide (s.queue.threshold.toNat ≤ s.queue.records.length) ||
        decide (s.queue.delay ≠ 0 ∧ s.queue.records ≠ [] ∧ s.queue.delay ≤ s.queue.headAge)) ∧
    (∃ t, exec .powerOnReset s = .next t ∧ t.queue.threshold = 1 ∧ t.queue.delay = 0) ∧
    (∃ t, exec (.softReset w) s = .next t ∧ t.queue.threshold = 1 ∧ t.queue.delay = 0)

/-! ### The command port -/

/-- A write to COMMAND while the port is BUSY is discarded: REFUSED is set and nothing else changes. REFUSED stays
set until a write to COMMAND that the port takes while IDLE, or a reset (R164). -/
def Obligations.BusyPortDiscards : Prop :=
  ∀ (s : State),
    (s.command.inProgress ≠ none →
      (∀ cmd, exec (commandInstr cmd) s =
        .next { s with command := { s.command with refused := true } }) ∧
      (∀ w, exec (.unknownCommand w) s =
        .next { s with command := { s.command with refused := true } })) ∧
    (∀ c t, exec c s = .next t → s.command.refused = true →
      (t.command.refused = true ↔ ¬ (isReset c = true ∨ PortIdle s ∧ writesCommand c = true)))

/-- A presented command that fails a check completes on the event of its write with the code of the first
stage that fails, BAD-COMMAND, then BAD-OPERAND, then the owner's, and changes no owner (R165, R166). -/
def Obligations.RefusedCommands : Prop :=
  ∀ (s : State), PortIdle s →
    (∀ w, (∀ cmd, hostCommandCode cmd ≠ w.setWidth 8) →
      exec (.unknownCommand w) s =
        .next (refreshInterrupts (afterCommand (w.setWidth 8) .badCommand 0 0 0 s))) ∧
    (∀ cmd, ¬ LegalOperands cmd s →
      exec (commandInstr cmd) s =
        .next (refreshInterrupts (afterCommand (hostCommandCode cmd) .badOperand 0 0 0 s))) ∧
    (∀ (cmd : HostCommand) (n : ChannelNo) (r : ResultCode), LegalOperands cmd s →
      (cmd = .setLog ∨ cmd = .logStop ∨ cmd = .logConsumed ∨ s.command.operandA.toNat = n.val) →
      CheckFails cmd (s.channel n) s r →
      exec (commandInstr cmd) s =
        .next (refreshInterrupts (afterCommand (hostCommandCode cmd) r 0 0 0 s)))

/-- BIND taken gives the channel its map set and stall limit and leaves it IDLE (R15). UNBIND taken gives its
record the values of reset (R16). -/
def Obligations.BindAndUnbind : Prop :=
  ∀ (s : State) (n : ChannelNo) (m : SetNo), PortIdle s → s.command.operandA.toNat = n.val →
    ((s.channel n).state = .disabled ∨ (s.channel n).state = .idle →
      s.command.operandB.toNat = m.val → s.command.operandC.toNat ≤ 255 →
      exec .bind s = .next (refreshInterrupts ((afterCommand 0x01 .ok 0 0 0 s).putChannel n
        { s.channel n with
          state := .idle
          mapSet := some m
          stallLimit := s.command.operandC.setWidth 8
          stallCounter := 0 }))) ∧
    ((s.channel n).state = .idle → (s.channel n).pendingEvent = none →
      (s.channel n).request = none →
      exec .unbind s =
        .next (refreshInterrupts ((afterCommand 0x02 .ok 0 0 0 s).putChannel n Channel.reset)))

/-- START taken clears the link-only run and the short flag, and the channel enters FETCHING at the address of
OPERAND B with fetch progress 0; exchanged and memory count are kept (R5, R17). -/
def Obligations.StartFetches : Prop :=
  ∀ (s : State) (n : ChannelNo), NothingDue s → PortIdle s → s.command.operandA.toNat = n.val →
    s.command.operandB.toNat < 2 ^ 24 → s.command.operandB.toNat % 4 = 0 →
    (s.channel n).state = .idle →
    exec .start s = .next (finishEvent ((afterCommand 0x03 .ok 0 0 0 s).putChannel n
      { s.channel n with
        state := .fetching
        descAddr := s.command.operandB.setWidth 24
        fetchProgress := 0
        fetched := []
        contents := none
        linkOnlyRun := 0
        short := false }))

/-- HALT taken: the resume state becomes the state the channel was in, and the channel enters HALTING, where
the command waits for the transaction in flight and for the pending-event slot. Where there is neither, the
channel leaves HALTING on the same event (R18, R19). A transaction abandoned before still counts as in flight,
and does so for a channel restarted after a fault too (the model's choice, log entries 8 and 21). -/
def Obligations.HaltTaken : Prop :=
  ∀ (s : State) (n : ChannelNo) (back : ResumeState), NothingDue s → PortIdle s →
    s.command.operandA.toNat = n.val →
    ((s.channel n).state = .fetching ∧ back = .fetching ∨
      (s.channel n).state = .running ∧ back = .running) →
    (s.channelInFlight n = true ∨ (s.channel n).pendingEvent ≠ none →
      exec .halt s = .next (finishEvent ((duringCommand .halt s).putChannel n
        { s.channel n with state := .halting, resume := some back }))) ∧
    (s.channelInFlight n = false → (s.channel n).pendingEvent = none →
      exec .halt s = exec (.leaveHalting n) ((duringCommand .halt s).putChannel n
        { s.channel n with state := .halting, resume := some back }))

/-- CONTINUE taken returns a HALTED channel to RUNNING with its stall counter 0, or to FETCHING from word 0,
restarts a fetch with its read in flight abandoned, and sends a HOLDING channel on to step SELECT (R22, R23,
R48). -/
def Obligations.ContinueTaken : Prop :=
  ∀ (s : State) (n : ChannelNo), NothingDue s → PortIdle s → s.command.operandA.toNat = n.val →
    ((s.channel n).state = .halted → (s.channel n).resume = some .running →
      exec .continueChannel s = .next (finishChannelEvent n
        ((afterCommand 0x05 .ok 0 0 0 s).putChannel n
          { s.channel n with state := .running, resume := none, stallCounter := 0 }))) ∧
    ((s.channel n).state = .halted ∧ (s.channel n).resume = some .fetching ∨
        (s.channel n).state = .fetching →
      exec .continueChannel s = .next (finishEvent
        { (afterCommand 0x05 .ok 0 0 0 s).putChannel n
            { s.channel n with
              state := .fetching
              fetchProgress := 0
              fetched := []
              contents := none
              resume := none } with
          port := abandonedPort n s.port })) ∧
    (∀ d, (s.channel n).state = .holding → (s.channel n).contents = some (.transfer d) →
      exec .continueChannel s =
        .next (finishChannelEvent n (settleSelect n d (afterCommand 0x05 .ok 0 0 0 s))))

/-- ABORT taken: the channel enters ABORTING with its words done fixed, a standing request turned away, its
staging queue, resume state, contents, fetch and pending event gone, its place on the wait list given up and
its transaction abandoned (R24). With nothing in flight it leaves ABORTING on the same event (R25). A transaction
abandoned before still counts as in flight, and does so for a channel restarted after a fault too (the model's
choice, log entries 8 and 21). -/
def Obligations.AbortTaken : Prop :=
  ∀ (s : State) (n : ChannelNo), NothingDue s → PortIdle s →
    s.command.operandA.toNat = n.val →
    ((s.channel n).state = .fetching ∨ (s.channel n).state = .running ∨
      (∃ step, (s.channel n).state = .settling step) ∨ (s.channel n).state = .holding ∨
      (s.channel n).state = .halted) →
    ∀ aborting, aborting =
      { ((duringCommand .abort s).putChannel n
          { s.channel n with
            state := .aborting
            abortWordsDone := some (match (s.channel n).contents with
              | some (.transfer d) => wordsDone (s.channel n) d
              | _ => 0)
            request := none
            staging := []
            resume := none
            contents := none
            fetchProgress := 0
            fetched := []
            pendingEvent := none }).putSlot n
          (turnedAwaySlot (s.slot n) (s.channel n).request) with
        port := abandonedPort n s.port
        queue := { s.queue with waitList := s.queue.waitList.erase n } } →
    (s.channelInFlight n = true → exec .abort s = .next (finishEvent aborting)) ∧
    (s.channelInFlight n = false → exec .abort s = exec (.leaveAborting n) aborting)

/-- CLEAR FAULT taken, for a logged record in every log state and for an unlogged one with the log OFF: the
record is removed, the channel leaves the fault order list, the descriptor fields and the stall counter are
cleared, and the channel enters IDLE with its binding, stall limit and pending event kept (R27). -/
def Obligations.ClearFaultTaken : Prop :=
  ∀ (s : State) (n : ChannelNo), PortIdle s → s.command.operandA.toNat = n.val →
    (s.channel n).state = .faulted →
    (isUnlogged (s.channel n).fault = false ∨ s.log.state = .off) →
    exec .clearFault s = .next (refreshInterrupts
      { (afterCommand 0x07 .ok 0 0 0 s).putChannel n
          { s.channel n with
            state := .idle
            stallCounter := 0
            descAddr := 0
            fetchProgress := 0
            fetched := []
            contents := none
            linkOnlyRun := 0
            exchanged := 0
            memoryCount := 0
            short := false
            fault := none } with
        log := { s.log with faultOrder := s.log.faultOrder.erase n } })

/-- READ CHANNEL, READ ENTRY and PROBE place their results in RESULT 0 to 2 in the layouts of R176 and R180,
complete with OK, and change nothing else (R28, R93, R94). -/
def Obligations.ReportingCommands : Prop :=
  ∀ (s : State), PortIdle s →
    (∀ n : ChannelNo, s.command.operandA.toNat = n.val →
      exec .readChannel s = .next (refreshInterrupts (afterCommand 0x08 .ok
        (0#4 ++ (s.channel n).linkOnlyRun ++ 0#3 ++ BitVec.ofBool (s.channel n).short ++
          (match (s.channel n).fault with
            | none => 0#4
            | some (.unlogged r) => r.kind.code.setWidth 4
            | some (.logged k) => k.code.setWidth 4) ++
          (match (s.channel n).pendingEvent with | none => 0#4 | some r => r.kind.code) ++ 0#1 ++
          BitVec.ofNat 3 (s.channel n).staging.length ++ 0#1 ++
          (match (s.channel n).mapSet with | none => 0#3 | some m => BitVec.ofNat 3 m.val) ++
          (s.channel n).state.code)
        ((s.channel n).exchanged ++ (s.channel n).memoryCount)
        (0#8 ++ (s.channel n).descAddr) s))) ∧
    (∀ (m : SetNo) (p : PageNo), s.command.operandA.toNat = m.val → s.command.operandB.toNat = p.val →
      exec .readEntry s = .next (refreshInterrupts (afterCommand 0x12 .ok
        (BitVec.ofBool ((s.mapSet m).entry p).valid ++ BitVec.ofBool ((s.mapSet m).entry p).read ++
          BitVec.ofBool ((s.mapSet m).entry p).write ++
          BitVec.ofBool ((s.mapSet m).entry p).referenced ++
          BitVec.ofBool ((s.mapSet m).entry p).modified ++ 0#15 ++ ((s.mapSet m).entry p).frame)
        (0#23 ++ BitVec.ofBool ((s.mapSet m).state == .loading) ++ 0#1 ++ (s.mapSet m).limit)
        0 s))) ∧
    (∀ (m : SetNo) (a : Access), s.command.operandA.toNat = m.val →
      s.command.operandB.toNat ≤ 262143 →
      (s.command.operandC = 1 ∧ a = .read ∨ s.command.operandC = 2 ∧ a = .write) →
      (∀ p addr, translateAccess (s.mapSet m) (s.command.operandB.setWidth 19) a = .passes p addr →
        exec .probe s = .next (refreshInterrupts (afterCommand 0x13 .ok 0 (0#8 ++ addr) 0 s))) ∧
      (∀ k, translateAccess (s.mapSet m) (s.command.operandB.setWidth 19) a = .fails k →
        exec .probe s = .next (refreshInterrupts (afterCommand 0x13 .ok (0#24 ++ k.code) 0 0 s))))

/-- LOAD MAP taken: the set enters LOADING and the loader record is formed. The load drains a data transaction
through the set, and otherwise all 64 entries are cleared and it enters READING at once (R84, R85). -/
def Obligations.LoadMapTaken : Prop :=
  ∀ (s : State) (m : SetNo), PortIdle s → s.command.operandA.toNat = m.val →
    1 ≤ s.command.operandC.toNat → s.command.operandC.toNat ≤ 64 →
    s.command.operandB.toNat + s.command.operandC.toNat ≤ 2 ^ 24 →
    ((∃ t p, s.port.inFlight = some t ∧ t.purpose.through = some (m, p)) →
      exec .loadMap s = .next (finishEvent
        { (duringCommand .loadMap s).putSet m { s.mapSet m with state := .loading } with
          loader := some
            { set := m
              source := s.command.operandB.setWidth 24
              newLimit := s.command.operandC.setWidth 7
              phase := .draining
              progress := 0 } })) ∧
    ((∀ t p, s.port.inFlight = some t → t.purpose.through ≠ some (m, p)) →
      exec .loadMap s = .next (finishEvent
        { (duringCommand .loadMap s).putSet m
            { s.mapSet m with
              state := .loading
              entries := Vector.replicate 64 PageEntry.cleared } with
          loader := some
            { set := m
              source := s.command.operandB.setWidth 24
              newLimit := s.command.operandC.setWidth 7
              phase := .reading
              progress := 0 } }))

/-- WRITE ENTRY taken: the entry takes VALID, READ, WRITE and frame from the image with its indicators clear,
and every other entry, the limit and the state are unchanged; or, while a transaction translated from the
entry is in flight, the command waits and the entry keeps its contents (R90, R180). -/
def Obligations.WriteEntryTaken : Prop :=
  ∀ (s : State) (m : SetNo) (p : PageNo), PortIdle s → s.command.operandA.toNat = m.val →
    s.command.operandB.toNat = p.val → p.val < (s.mapSet m).limit.toNat →
    ((∃ t, s.port.inFlight = some t ∧ t.purpose.through = some (m, p)) →
      exec .writeEntry s = .next (duringCommand .writeEntry s)) ∧
    ((∀ t, s.port.inFlight = some t → t.purpose.through ≠ some (m, p)) →
      exec .writeEntry s = .next (refreshInterrupts ((afterCommand 0x11 .ok 0 0 0 s).putSet m
        ((s.mapSet m).putEntry p
          { valid := s.command.operandC.getLsbD 31
            read := s.command.operandC.getLsbD 30
            write := s.command.operandC.getLsbD 29
            frame := s.command.operandC.extractLsb' 0 12
            referenced := false
            modified := false }))))

/-- SET LOG, LOG STOP and LOG CONSUMED taken (R147, R148, R149). -/
def Obligations.LogCommandsTaken : Prop :=
  ∀ (s : State), PortIdle s →
    (LegalOperands .setLog s → s.log.state = .off →
      exec .setLog s = .next (finishEvent { afterCommand 0x20 .ok 0 0 0 s with
        log := { s.log with
          state := .running
          base := s.command.operandA.setWidth 24
          capacity := s.command.operandB.setWidth 11
          writeIndex := 0
          unconsumed := 0
          nextSequence := 1 } })) ∧
    (s.log.state ≠ .off → s.log.underWay = none →
      exec .logStop s = .next (refreshInterrupts { afterCommand 0x21 .ok 0 0 0 s with
        log := { s.log with state := .off } })) ∧
    (s.log.state ≠ .off → s.log.underWay ≠ none →
      exec .logStop s = .next (duringCommand .logStop s)) ∧
    (LegalOperands .logConsumed s → s.command.operandA.toNat ≤ s.log.unconsumed.toNat →
      exec .logConsumed s = .next (finishEvent { afterCommand 0x22 .ok 0 0 0 s with
        log := { s.log with
          unconsumed := BitVec.ofNat 11 (s.log.unconsumed.toNat - s.command.operandA.toNat)
          state := if s.log.state = .full then .running else s.log.state } }))

/-! ### The interval timer -/

/-- On an empty queue a step is one microsecond (R153; that it is a microsecond is the model's choice, log
entry 11): the prescaler position rises by 1, and where it would reach P a tick occurs. A tick raises the tick
count, the stall counter of each ready channel with a stall limit and the head age of a non-empty queue below
255; the channels whose counter then stands at the limit, and no others, fault with STALL-TIMEOUT, in some order
(R123, R154, R157 to R159). STALL TIMEOUT is that fault for one channel, and does nothing for a channel that is
not at its limit (the model's choice, log entry 2). -/
def Obligations.TickAndStallTimeout : Prop :=
  ∀ (s : State),
    (s.pending = [] →
      (s.timer.prescaler.toNat + 1 < s.timer.period.toNat →
        step s = .next { s with timer := { s.timer with prescaler := s.timer.prescaler + 1 } }) ∧
      (s.timer.period.toNat ≤ s.timer.prescaler.toNat + 1 → step s = exec .tick s)) ∧
    (∀ c, readyForPeripheral c = true ↔ Ready c) ∧
    (∃ (raised : State) (order : List ChannelNo),
      raised =
        { s with
          channels := raised.channels
          timer := { s.timer with prescaler := 0, tickCount := s.timer.tickCount + 1 }
          queue := { s.queue with headAge :=
            if s.queue.records ≠ [] ∧ s.queue.headAge ≠ 255 then s.queue.headAge + 1
            else s.queue.headAge }
          tickDraws := s.tickDraws + 1 } ∧
      (∀ n, raised.channel n =
        if (s.channel n).stallLimit ≠ 0 ∧ readyForPeripheral (s.channel n) = true then
          { s.channel n with stallCounter := (s.channel n).stallCounter + 1 }
        else s.channel n) ∧
      order.Nodup ∧
      (∀ n, n ∈ order ↔ (raised.channel n).stallLimit ≠ 0 ∧
        readyForPeripheral (raised.channel n) = true ∧
        (raised.channel n).stallCounter = (raised.channel n).stallLimit) ∧
      exec .tick s = .next (finishEvent
        (order.foldl (fun t n => enterFaulted n .stallTimeout t) raised))) ∧
    (∀ n, (s.channel n).stallLimit ≠ 0 → readyForPeripheral (s.channel n) = true →
      (s.channel n).stallCounter = (s.channel n).stallLimit →
      exec (.stallTimeout n) s = .next (finishEvent (enterFaulted n .stallTimeout s))) ∧
    (∀ n, ((s.channel n).stallLimit = 0 ∨ readyForPeripheral (s.channel n) = false ∨
        (s.channel n).stallCounter ≠ (s.channel n).stallLimit) →
      exec (.stallTimeout n) s = .next s)

/-- A write of 1 to 65535 to the low 16 bits of TIMER PERIOD sets P and restarts the prescaler, and one of 0 is
discarded; bits above are not looked at and nothing else changes. A read returns P. A tick that is due when the
write restarts the prescaler does not occur (R155). -/
def Obligations.TimerPeriodWrites : Prop :=
  ∀ (s : State) (w : Word),
    windowRead s 19 = 0#16 ++ s.timer.period ∧
    (w.extractLsb' 0 16 ≠ 0 →
      exec (.timerPeriodWrite w) s =
        .next { s with timer := { s.timer with period := w.extractLsb' 0 16, prescaler := 0 } }) ∧
    (w.extractLsb' 0 16 = 0 → exec (.timerPeriodWrite w) s = .next s) ∧
    (∀ t, exec .tick s = .next t → w.extractLsb' 0 16 ≠ 0 →
      ∃ u, exec (.timerPeriodWrite w) t = .next u ∧ u.timer.prescaler = 0 ∧
        u.timer.period = w.extractLsb' 0 16 ∧ u.timer.tickCount = s.timer.tickCount + 1)

/-! ### The channel link -/

/-- In DISABLED, IDLE, ABORTING and FAULTED an OFFER or ASK is answered REFUSE and an END or FAIL is answered
ACK on the event of its arrival, and nothing changes in the record (R12, R51, R53, R54, R72). -/
def Obligations.RequestsTurnedAway : Prop :=
  ∀ (s : State) (n : ChannelNo) (r : LinkRequest), NothingDue s → FreeSlot s n →
    ((s.channel n).state = .disabled ∨ (s.channel n).state = .idle ∨
      (s.channel n).state = .aborting ∨ (s.channel n).state = .faulted) →
    exec (requestInstr n r) s = .next (finishEvent (s.putSlot n (answeredSlot (s.slot n) r
      (match r with | .offer _ => .refuse | .ask => .refuse | .endBlock => .ack | .fail => .ack))))

/-- A request that the state of the channel gives no answer waits, and becomes the channel's request
outstanding: OFFER, ASK and END in FETCHING, SETTLING, HOLDING, HALTING and HALTED, and in RUNNING an OFFER
whose word cannot be taken and an ASK with no word staged (R50, R53, R54, R57, R63). -/
def Obligations.RequestsWait : Prop :=
  ∀ (s : State) (n : ChannelNo) (r : LinkRequest), NothingDue s → FreeSlot s n → Waits (s.channel n) r →
    exec (requestInstr n r) s = .next (finishEvent
      ((s.putChannel n { s.channel n with request := some r }).putSlot n
        { s.slot n with lines := some r }))

/-- A word is exchanged in RUNNING. An OFFER is answered TAKE and its word joins the staging queue; an ASK is
answered GIVE with the head word, which leaves it; exchanged rises by 1 and the stall counter becomes 0. A GIVE
that raises exchanged to the count completes the block on the same event (R57, R63, R69). -/
def Obligations.WordsExchanged : Prop :=
  ∀ (s : State) (n : ChannelNo) (d : Transfer), NothingDue s → AccountInv s → FreeSlot s n →
    (s.channel n).state = .running → (s.channel n).contents = some (.transfer d) →
    (∀ w, d.direction = .inbound → (s.channel n).exchanged < d.count → (s.channel n).short = false →
      (s.channel n).staging.length < 4 →
      exec (.offer n w) s = .next (finishEvent
        ((s.putChannel n { s.channel n with
            staging := (s.channel n).staging ++ [w]
            exchanged := (s.channel n).exchanged + 1
            stallCounter := 0 }).putSlot n (answeredSlot (s.slot n) (.offer w) .take)))) ∧
    (∀ w rest, d.direction = .outbound → (s.channel n).staging = w :: rest → ∀ given,
      given =
        (s.putChannel n { s.channel n with
            staging := rest
            exchanged := (s.channel n).exchanged + 1
            stallCounter := 0 }).putSlot n (answeredSlot (s.slot n) .ask (.give w)) →
      ((s.channel n).exchanged + 1 ≠ d.count → exec (.ask n) s = .next (finishEvent given)) ∧
      ((s.channel n).exchanged + 1 = d.count → exec (.ask n) s = exec (.blockComplete n) given))

/-- An OFFER in RUNNING on an OUTBOUND descriptor, or an ASK on an INBOUND one, is answered REFUSE and faults
the channel with LINK-PROTOCOL (R64). -/
def Obligations.WrongDirectionFaults : Prop :=
  ∀ (s : State) (n : ChannelNo) (d : Transfer) (r : LinkRequest), NothingDue s → FreeSlot s n →
    (s.channel n).state = .running → (s.channel n).contents = some (.transfer d) →
    ((∃ w, r = .offer w) ∧ d.direction = .outbound ∨ r = .ask ∧ d.direction = .inbound) →
    exec (requestInstr n r) s = .next (finishEvent ((enterFaulted n .linkProtocol s).putSlot n
      (answeredSlot (s.slot n) r .refuse)))

/-- An END met in RUNNING is answered ACK. With exchanged below the count and the short flag clear it sets the
short flag and, on an OUTBOUND descriptor, empties the staging queue and abandons the read in flight; otherwise
it changes nothing else. A block with nothing left to move completes on the same event (R65, R66, R67, R69). -/
def Obligations.EndMetInRunning : Prop :=
  ∀ (s : State) (n : ChannelNo) (d : Transfer), NothingDue s → AccountInv s → FreeSlot s n →
    (s.channel n).state = .running → (s.channel n).contents = some (.transfer d) →
    (d.count ≤ (s.channel n).exchanged ∨ (s.channel n).short = true →
      exec (.endBlock n) s =
        .next (finishEvent (s.putSlot n (answeredSlot (s.slot n) .endBlock .ack)))) ∧
    ((s.channel n).exchanged < d.count → (s.channel n).short = false → d.direction = .inbound →
      ∀ ended, ended = (s.putChannel n { s.channel n with short := true }).putSlot n
        (answeredSlot (s.slot n) .endBlock .ack) →
      ((s.channel n).staging ≠ [] ∨ s.channelInFlight n = true →
        exec (.endBlock n) s = .next (finishEvent ended)) ∧
      ((s.channel n).staging = [] → s.channelInFlight n = false →
        exec (.endBlock n) s = exec (.blockComplete n) ended)) ∧
    ((s.channel n).exchanged < d.count → (s.channel n).short = false → d.direction = .outbound →
      ∀ ended, ended =
        { (s.putChannel n { s.channel n with short := true, staging := [] }).putSlot n
            (answeredSlot (s.slot n) .endBlock .ack) with
          port := abandonedPort n s.port } →
      (s.channelInFlight n = true → exec (.endBlock n) s = .next (finishEvent ended)) ∧
      (s.channelInFlight n = false → exec (.endBlock n) s = exec (.blockComplete n) ended))

/-- A FAIL in FETCHING, RUNNING, SETTLING, HOLDING, HALTING or HALTED is answered ACK and faults the channel with
PERIPH-FAIL on the event of its arrival. A request that stood before it is withdrawn without an answer
(R51, R68). -/
def Obligations.FailFaults : Prop :=
  ∀ (s : State) (n : ChannelNo), NothingDue s → (s.slot n).answerValid = false →
    ((s.channel n).state = .fetching ∨ (s.channel n).state = .running ∨
      (∃ step, (s.channel n).state = .settling step) ∨ (s.channel n).state = .holding ∨
      (s.channel n).state = .halting ∨ (s.channel n).state = .halted) →
    exec (.fail n) s = .next (finishEvent ((enterFaulted n .periphFail s).putSlot n
      (answeredSlot (s.slot n) .fail .ack)))

/-- The slot outside a free conversation (R50). A rise of request valid while a request stands presents nothing
new. A request presented before answer valid has fallen is kept (the model's form of it, log entry 9). The fall
of request valid before the answer withdraws nothing; after the answer it lowers answer valid, and a request
kept until then arrives. The request codes 0 to 3 are OFFER, ASK, END and FAIL, the word of an OFFER being on the
data lines; the answer codes 0 to 3 are TAKE, GIVE, REFUSE and ACK, shown while answer valid is raised, with the
word of a GIVE on the data lines. -/
def Obligations.SlotConversation : Prop :=
  ∀ (s : State) (n : ChannelNo) (r : LinkRequest),
    ((s.slot n).answerValid = false → (s.channel n).request ≠ none → r ≠ .fail →
      exec (requestInstr n r) s =
        .next (finishEvent (s.putSlot n { s.slot n with lines := some r }))) ∧
    ((s.slot n).answerValid = true → (s.slot n).early = none ∨ r = .fail →
      exec (requestInstr n r) s =
        .next (finishEvent (s.putSlot n { s.slot n with early := some r }))) ∧
    ((s.slot n).answerValid = true → (s.slot n).early ≠ none → r ≠ .fail →
      exec (requestInstr n r) s = .next (finishEvent s)) ∧
    ((s.slot n).answerValid = false →
      exec (.requestValidFall n) s =
        .next (finishEvent (s.putSlot n { s.slot n with lines := none }))) ∧
    ((s.slot n).answerValid = true → (s.slot n).early = none →
      exec (.requestValidFall n) s = .next (finishEvent
        (s.putSlot n { s.slot n with lines := none, answerValid := false }))) ∧
    ((s.slot n).answerValid = true → (s.slot n).early = some r → (s.channel n).request = none →
      exec (.requestValidFall n) s = exec (requestInstr n r)
        (s.putSlot n { s.slot n with lines := none, answerValid := false, early := none })) ∧
    (∀ w, commandOfLines n 0 w = .offer n w ∧ commandOfLines n 1 w = .ask n ∧
      commandOfLines n 2 w = .endBlock n ∧ commandOfLines n 3 w = .fail n ∧
      commandOfLines n r.code (r.data.getD w) = requestInstr n r) ∧
    (∀ w, r.data = some w ↔ r = .offer w) ∧
    ((s.slot n).answerValid = false →
      (s.slot n).answerCode = none ∧ (s.slot n).answerData = none) ∧
    ((s.slot n).answerValid = true → ∀ a, (s.slot n).answer = some a →
      (s.slot n).answerCode = some a.code ∧ (s.slot n).answerData = a.data ∧
      (a.code = 0 ↔ a = .take) ∧ (a.code = 1 ↔ ∃ w, a = .give w) ∧
      (a.code = 2 ↔ a = .refuse) ∧ (a.code = 3 ↔ a = .ack) ∧
      (∀ w, a.data = some w ↔ a = .give w))

/-- A waiting request is met again, in a channel with no other transition due, and every answer is on the slot
with answer valid raised only while request valid still is (R50, R52). In DISABLED, IDLE, ABORTING and FAULTED it is
turned away (R53, R54), as where its channel has come to the end of its chain. A FAIL faults the channel with
PERIPH-FAIL (R68). A request without an answer in its state goes on waiting. In RUNNING (R70) an OFFER is answered
TAKE and an ASK GIVE, and a GIVE that raises exchanged to the count completes the block (R57, R63, R69); one of the
wrong direction is refused and faults the channel with LINK-PROTOCOL (R64); an END is acknowledged and ends the
block short where words are missing (R65, R66, R67). Where no request stands nothing happens (the model's choice,
log entry 2). An abandoned transaction still counts as in flight (the model's choice, log entry 8). -/
def Obligations.WaitingRequestAnswered : Prop :=
  ∀ (s : State) (n : ChannelNo),
    ((s.channel n).request = none → exec (.waitingRequestMet n) s = .next s) ∧
    (∀ r, (s.channel n).request = some r → resumedStep s n = none → leaveHaltingDue s n = false →
      leaveAbortingDue s n = false → completedBlock s n = none →
      ((s.channel n).state = .disabled ∨ (s.channel n).state = .idle ∨ (s.channel n).state = .aborting ∨
          (s.channel n).state = .faulted →
        exec (.waitingRequestMet n) s = .next (finishEvent (answeredWaiting s n
          (match r with | .offer _ => .refuse | .ask => .refuse | .endBlock => .ack | .fail => .ack)
          { s.channel n with request := none }))) ∧
      (r = .fail → (s.channel n).state = .fetching ∨ (s.channel n).state = .running ∨
          (∃ step, (s.channel n).state = .settling step) ∨ (s.channel n).state = .holding ∨
          (s.channel n).state = .halting ∨ (s.channel n).state = .halted →
        exec (.waitingRequestMet n) s = .next (finishEvent (enterFaulted n .periphFail s))) ∧
      (Waits (s.channel n) r → exec (.waitingRequestMet n) s = .next (finishEvent s))) ∧
    (∀ d, completedBlock s n = none → (s.channel n).state = .running →
      (s.channel n).contents = some (.transfer d) →
      (∀ w, (s.channel n).request = some (.offer w) → d.direction = .inbound →
        (s.channel n).exchanged < d.count → (s.channel n).short = false →
        (s.channel n).staging.length < 4 →
        exec (.waitingRequestMet n) s = .next (finishEvent (answeredWaiting s n .take
          { s.channel n with
            request := none
            staging := (s.channel n).staging ++ [w]
            exchanged := (s.channel n).exchanged + 1
            stallCounter := 0 }))) ∧
      (∀ w rest, (s.channel n).request = some .ask → d.direction = .outbound →
        (s.channel n).staging = w :: rest → ∀ given,
        given = answeredWaiting s n (.give w)
          { s.channel n with
            request := none
            staging := rest
            exchanged := (s.channel n).exchanged + 1
            stallCounter := 0 } →
        ((s.channel n).exchanged + 1 ≠ d.count ∨ s.channelInFlight n = true →
          exec (.waitingRequestMet n) s = .next (finishEvent given)) ∧
        ((s.channel n).exchanged + 1 = d.count → s.channelInFlight n = false →
          exec (.waitingRequestMet n) s = exec (.blockComplete n) given)) ∧
      (((∃ w, (s.channel n).request = some (.offer w)) ∧ d.direction = .outbound ∨
          (s.channel n).request = some .ask ∧ d.direction = .inbound) →
        exec (.waitingRequestMet n) s = .next (finishEvent (enterFaulted n .linkProtocol s)) ∧
        (enterFaulted n .linkProtocol s).slot n =
          { s.slot n with answer := some .refuse, answerValid := (s.slot n).lines.isSome }) ∧
      ((s.channel n).request = some .endBlock →
        (d.count ≤ (s.channel n).exchanged ∨ (s.channel n).short = true →
          exec (.waitingRequestMet n) s = .next (finishEvent (answeredWaiting s n .ack
            { s.channel n with request := none }))) ∧
        ((s.channel n).exchanged < d.count → (s.channel n).short = false → ∀ ended,
          ended = { answeredWaiting s n .ack
              { s.channel n with
                request := none
                short := true
                staging := if d.direction = .inbound then (s.channel n).staging else [] } with
            port := if d.direction = .inbound then s.port else abandonedPort n s.port } →
          (s.channelInFlight n = true ∨ d.direction = .inbound ∧ (s.channel n).staging ≠ [] →
            exec (.waitingRequestMet n) s = .next (finishEvent ended)) ∧
          (s.channelInFlight n = false → d.direction = .outbound ∨ (s.channel n).staging = [] →
            exec (.waitingRequestMet n) s = exec (.blockComplete n) ended))))

/-! ### Completions -/

/-- A descriptor read that completes OK before word 3 is kept and raises fetch progress; in HALTING every word
is kept, and word 3 is not validated. One that completes with BUS-ERROR faults the channel (R19, R34). -/
def Obligations.DescriptorWordKept : Prop :=
  ∀ (s : State) (n : ChannelNo) (a : PhysAddr) (w : Word), NothingDue s →
    s.port.inFlight = some { purpose := .descRead n, address := a, delivery := .deliver } →
    ∀ kept, kept = { s.putChannel n { s.channel n with
        fetchProgress := (s.channel n).fetchProgress + 1
        fetched := (s.channel n).fetched ++ [w] } with
      port := { s.port with inFlight := none } } →
    ((s.channel n).state = .fetching → (s.channel n).fetchProgress < 3 →
      exec (.descReadComplete (.ok w)) s = .next (finishEvent kept)) ∧
    ((s.channel n).state = .halting → (s.channel n).pendingEvent ≠ none →
      exec (.descReadComplete (.ok w)) s = .next (finishEvent kept)) ∧
    ((s.channel n).state = .halting → (s.channel n).pendingEvent = none →
      exec (.descReadComplete (.ok w)) s = exec (.leaveHalting n) kept) ∧
    ((s.channel n).state = .fetching ∨ (s.channel n).state = .halting →
      exec (.descReadComplete .busError) s = .next (finishEvent
        (enterFaulted n .busError { s with port := { s.port with inFlight := none } })))

/-- On the arrival of word 3 the four words are validated. A transfer descriptor is accepted and the channel
enters RUNNING, where a standing request is met; a link-only one below the run limit raises the run, and its
link is followed or faults the channel with DESC-FORMAT; at the limit the channel faults with CHAIN-LIMIT; an
invalid descriptor faults it with DESC-FORMAT (R6, R34, R37, R39, R40, R70). That a refused link-only descriptor
stands as the contents of its FAULTED channel is the model's choice (log entry 17). -/
def Obligations.DescriptorAccepted : Prop :=
  ∀ (s : State) (n : ChannelNo) (a : PhysAddr) (w0 w1 w2 w3 : Word), NothingDue s →
    s.port.inFlight = some { purpose := .descRead n, address := a, delivery := .deliver } →
    (s.channel n).state = .fetching → (s.channel n).fetchProgress = 3 →
    (s.channel n).fetched = [w0, w1, w2] →
    ∀ c, c = { s.channel n with fetchProgress := 4, fetched := [] } →
    (∀ d, validateDescriptor [w0, w1, w2, w3] = some (.transfer d) → ∀ running,
      running = { s.putChannel n { c with
          state := .running
          contents := some (.transfer d)
          exchanged := 0
          memoryCount := 0
          short := false
          linkOnlyRun := 0
          stallCounter := 0 } with
        port := { s.port with inFlight := none } } →
      ((s.channel n).request = none →
        exec (.descReadComplete (.ok w3)) s = .next (finishEvent running)) ∧
      ((s.channel n).request ≠ none →
        exec (.descReadComplete (.ok w3)) s = exec (.waitingRequestMet n) running)) ∧
    (∀ link, validateDescriptor [w0, w1, w2, w3] = some (.linkOnly link) → c.linkOnlyRun < 12 →
      (link.toNat % 4 = 0 →
        exec (.descReadComplete (.ok w3)) s = .next (finishEvent
          { s.putChannel n { c with
              state := .fetching
              descAddr := link
              fetchProgress := 0
              contents := none
              linkOnlyRun := c.linkOnlyRun + 1 } with
            port := { s.port with inFlight := none } })) ∧
      (link.toNat % 4 ≠ 0 →
        exec (.descReadComplete (.ok w3)) s = .next (finishEvent (enterFaulted n .descFormat
          { s.putChannel n { c with
              descAddr := link
              contents := some (.linkOnly link)
              linkOnlyRun := c.linkOnlyRun + 1 } with
            port := { s.port with inFlight := none } })))) ∧
    (∀ link, validateDescriptor [w0, w1, w2, w3] = some (.linkOnly link) → c.linkOnlyRun = 12 →
      exec (.descReadComplete (.ok w3)) s = .next (finishEvent (enterFaulted n .chainLimit
        { s.putChannel n { c with contents := some (.linkOnly link) } with
          port := { s.port with inFlight := none } }))) ∧
    (validateDescriptor [w0, w1, w2, w3] = none →
      exec (.descReadComplete (.ok w3)) s = .next (finishEvent (enterFaulted n .descFormat
        { s.putChannel n c with port := { s.port with inFlight := none } })))

/-- A data write that completes OK sets MODIFIED in the entry of its record, removes the head word and raises
memory count; a data read that completes OK adds its word to the tail and raises memory count; the channel then
goes on. One that completes with BUS-ERROR faults the channel and sets nothing. RUNNING and HALTING alike
(R19, R59, R60, R62, R82, R107). -/
def Obligations.DataTransactionCompletes : Prop :=
  ∀ (s : State) (n : ChannelNo) (m : SetNo) (p : PageNo) (a : PhysAddr) (x w : Word),
    ((s.channel n).state = .running ∨ (s.channel n).state = .halting) → ∀ freed,
    freed = { s with port := { s.port with inFlight := none } } →
    (s.port.inFlight = some { purpose := .dataWrite n m p x, address := a, delivery := .deliver } →
      exec (.dataWriteComplete .ok) s = .next (finishChannelEvent n
        ((freed.putSet m ((s.mapSet m).putEntry p
            { (s.mapSet m).entry p with modified := true })).putChannel n
          { s.channel n with
            staging := (s.channel n).staging.drop 1
            memoryCount := (s.channel n).memoryCount + 1 })) ∧
      exec (.dataWriteComplete .busError) s =
        .next (finishChannelEvent n (enterFaulted n .busError freed))) ∧
    (s.port.inFlight = some { purpose := .dataRead n m p, address := a, delivery := .deliver } →
      exec (.dataReadComplete (.ok w)) s = .next (finishChannelEvent n
        (freed.putChannel n
          { s.channel n with
            staging := (s.channel n).staging ++ [w]
            memoryCount := (s.channel n).memoryCount + 1 })) ∧
      exec (.dataReadComplete .busError) s =
        .next (finishChannelEvent n (enterFaulted n .busError freed)))

/-- The completion of a DISCARD transaction frees the port and ends the wait of its channel, and that of an
ORPHAN only frees the port; a DISCARD write that completes OK still sets MODIFIED, an ORPHAN does not
(R82, R106, R110). A completion of a kind that is not in flight, with the port free or holding a transaction of
another kind, changes nothing, and one that finds the loader record or the record under way gone only frees the
port (the model's choice, log entry 3). -/
def Obligations.DroppedCompletions : Prop :=
  ∀ (s : State) (n : ChannelNo) (m : SetNo) (p : PageNo) (a : PhysAddr) (x : Word) (r : BusRead)
    (b : BusWrite), ∀ freed,
    freed = { s with port := { s.port with inFlight := none } } →
    (s.port.inFlight = some { purpose := .descRead n, address := a, delivery := .discard } →
      exec (.descReadComplete r) s = .next (finishChannelEvent n freed)) ∧
    (s.port.inFlight = some { purpose := .dataRead n m p, address := a, delivery := .discard } →
      exec (.dataReadComplete r) s = .next (finishChannelEvent n freed)) ∧
    (s.port.inFlight = some { purpose := .dataWrite n m p x, address := a, delivery := .discard } →
      exec (.dataWriteComplete .busError) s = .next (finishChannelEvent n freed) ∧
      exec (.dataWriteComplete .ok) s = .next (finishChannelEvent n
        (freed.putSet m ((s.mapSet m).putEntry p
          { (s.mapSet m).entry p with modified := true })))) ∧
    (s.port.inFlight = some { purpose := .descRead n, address := a, delivery := .orphan } →
      exec (.descReadComplete r) s = .next (finishEvent freed)) ∧
    (s.port.inFlight = some { purpose := .dataRead n m p, address := a, delivery := .orphan } →
      exec (.dataReadComplete r) s = .next (finishEvent freed)) ∧
    (s.port.inFlight = some { purpose := .dataWrite n m p x, address := a, delivery := .orphan } →
      exec (.dataWriteComplete b) s = .next (finishEvent freed)) ∧
    (s.port.inFlight = some { purpose := .mapRead, address := a, delivery := .orphan } →
      exec (.mapReadComplete r) s = .next (finishEvent freed)) ∧
    (s.port.inFlight = some { purpose := .logWrite x, address := a, delivery := .orphan } →
      exec (.logWriteComplete b) s = .next (finishEvent freed)) ∧
    (s.port.inFlight = some { purpose := .mapRead, address := a, delivery := .deliver } →
      s.loader = none → exec (.mapReadComplete r) s = .next (finishEvent freed)) ∧
    (s.port.inFlight = some { purpose := .logWrite x, address := a, delivery := .deliver } →
      s.log.underWay = none → exec (.logWriteComplete b) s = .next (finishEvent freed)) ∧
    ((∀ t, s.port.inFlight = some t → ∀ k, t.purpose ≠ .descRead k) →
      exec (.descReadComplete r) s = .next s) ∧
    ((∀ t, s.port.inFlight = some t → ∀ k i q, t.purpose ≠ .dataRead k i q) →
      exec (.dataReadComplete r) s = .next s) ∧
    ((∀ t, s.port.inFlight = some t → ∀ k i q v, t.purpose ≠ .dataWrite k i q v) →
      exec (.dataWriteComplete b) s = .next s) ∧
    ((∀ t, s.port.inFlight = some t → t.purpose ≠ .mapRead) → exec (.mapReadComplete r) s = .next s) ∧
    ((∀ t, s.port.inFlight = some t → ∀ v, t.purpose ≠ .logWrite v) →
      exec (.logWriteComplete b) s = .next s)

/-- A map image read that completes OK fills the entry of the load progress; the last one gives the set its new
limit and makes it READY, and LOAD MAP completes with OK. One that completes with BUS-ERROR clears the set with
limit 64 and makes it READY, and LOAD MAP completes with BUS-ERROR (R86, R87, R88). -/
def Obligations.MapReadCompletes : Prop :=
  ∀ (s : State) (l : Loader) (p : PageNo) (a : PhysAddr) (w : Word),
    s.port.inFlight = some { purpose := .mapRead, address := a, delivery := .deliver } →
    s.loader = some l → l.progress.toNat = p.val →
    ∀ freed, freed = { s with port := { s.port with inFlight := none } } →
    ∀ filled, filled = (s.mapSet l.set).putEntry p
      { valid := w.getLsbD 31
        read := w.getLsbD 30
        write := w.getLsbD 29
        frame := w.extractLsb' 0 12
        referenced := false
        modified := false } →
    (l.progress + 1 ≠ l.newLimit →
      exec (.mapReadComplete (.ok w)) s = .next (finishEvent
        { freed.putSet l.set filled with
          loader := some { l with progress := l.progress + 1 } })) ∧
    (l.progress + 1 = l.newLimit →
      exec (.mapReadComplete (.ok w)) s = .next (finishEvent (commandEnded .ok
        { freed.putSet l.set { filled with state := .ready, limit := l.newLimit } with
          loader := none }))) ∧
    exec (.mapReadComplete .busError) s = .next (finishEvent (commandEnded .busError
      { freed.putSet l.set
          { state := .ready, limit := 64, entries := Vector.replicate 64 PageEntry.cleared } with
        loader := none }))

/-- A log word that completes OK is counted. Word 0 of a ring record advances W, U and the sequence, makes the
channel's record logged and takes the channel off the list; word 0 of the overflow record advances the sequence
and takes a log with U equal to C to FULL, latching LOG. A BUS-ERROR abandons the record and takes the log to
ERROR, latching LOG (R138, R139, R140, R144, R145). -/
def Obligations.LogWriteCompletes : Prop :=
  ∀ (s : State) (u : UnderWay) (a : PhysAddr) (x : Word),
    s.port.inFlight = some { purpose := .logWrite x, address := a, delivery := .deliver } →
    s.log.underWay = some u →
    ∀ freed, freed = { s with port := { s.port with inFlight := none } } →
    ∀ sequence, sequence = (if s.log.nextSequence = 65535 then 1 else s.log.nextSequence + 1) →
    (u.written ≠ 3 →
      exec (.logWriteComplete .ok) s = .next (finishEvent { freed with
        log := { s.log with underWay := some { u with written := u.written + 1 } } })) ∧
    (∀ n r, u.written = 3 → u.target = .channel n → (s.channel n).fault = some (.unlogged r) →
      s.log.capacity ≠ 0 →
      exec (.logWriteComplete .ok) s = .next (finishEvent
        { freed.putChannel n { s.channel n with fault := some (.logged r.kind) } with
          log := { s.log with
            writeIndex := BitVec.ofNat 10 ((s.log.writeIndex.toNat + 1) % s.log.capacity.toNat)
            unconsumed := s.log.unconsumed + 1
            nextSequence := sequence
            underWay := none
            faultOrder := s.log.faultOrder.erase n } })) ∧
    (∀ r, u.written = 3 → u.target = .overflow r →
      (s.log.unconsumed = s.log.capacity →
        exec (.logWriteComplete .ok) s = .next (finishEvent { freed with
          log := { s.log with nextSequence := sequence, underWay := none, state := .full }
          interrupts := { s.interrupts with log := true } })) ∧
      (s.log.unconsumed ≠ s.log.capacity →
        exec (.logWriteComplete .ok) s = .next (finishEvent { freed with
          log := { s.log with nextSequence := sequence, underWay := none } }))) ∧
    exec (.logWriteComplete .busError) s = .next (finishEvent { freed with
      log := { s.log with underWay := none, state := .error }
      interrupts := { s.interrupts with log := true } })

/-! ### The memory port -/

/-- A grant, by class: the map loader's MAP-READ, else the log writer's LOG-WRITE with its record word in the
layout of R181, else the chosen channel's request; only a grant to a channel that issues a transaction changes
the fairness record (R86, R101, R102, R104, R134, R137, R181). Where no eligible request stands no grant is made
and the event goes on to its end (R100), and where no grant may be made GRANT does nothing (the model's choice, log
entry 2). -/
def Obligations.GrantByClass : Prop :=
  ∀ (s : State),
    (s.port.inFlight ≠ none ∨ s.control.masterEnable = false → exec .grant s = .next s) ∧
    (canGrant s = true → mapRequest s = none → logRequest s = none → eligibleChannels s = [] →
      exec .grant s = .next (finishEvent s)) ∧
    (∀ l, canGrant s = true → s.loader = some l → l.phase = .reading →
      exec .grant s = .next (finishEvent { s with
        port := { s.port with
          inFlight := some
            { purpose := .mapRead
              address := l.source + l.progress.setWidth 24
              delivery := .deliver } } })) ∧
    (∀ u n r, canGrant s = true → mapRequest s = none → s.log.underWay = some u →
      u.target = .channel n → (s.channel n).fault = some (.unlogged r) → ∀ k, k = u.written + 1 →
      exec .grant s = .next (finishEvent { s with
        port := { s.port with
          inFlight := some
            { purpose := .logWrite
                (if k = 0 then s.log.nextSequence ++ r.kind.code ++ BitVec.ofNat 4 r.channel.val ++ 0#4
                 else if k = 1 then 0#8 ++ r.descAddr
                 else if k = 2 then 0#13 ++ r.logical
                 else r.stamp ++ r.wordsDone)
              address := s.log.base + 4 * u.slot.setWidth 24 + k.setWidth 24
              delivery := .deliver } } })) ∧
    (∀ u r, canGrant s = true → mapRequest s = none → s.log.underWay = some u →
      u.target = .overflow r → ∀ k, k = u.written + 1 →
      exec .grant s = .next (finishEvent { s with
        port := { s.port with
          inFlight := some
            { purpose := .logWrite
                (if k = 0 then s.log.nextSequence ++ 15#8 ++ BitVec.ofNat 4 r.channel.val ++ 0#4
                 else if k = 1 then 0#8 ++ r.descAddr
                 else if k = 2 then 0#13 ++ r.logical
                 else r.stamp ++ r.waiting)
              address := s.log.base + 4 * u.slot.setWidth 24 + k.setWidth 24
              delivery := .deliver } } })) ∧
    (∀ n, canGrant s = true → mapRequest s = none → s.log.underWay = none → Chosen s n →
      (s.channel n).state = .fetching → (s.channel n).fetchProgress < 4 →
      exec .grant s = .next (finishEvent { s with port :=
        { streakRecord s.port n (decide (∃ m, m ≠ n ∧ eligibleRequest s m ≠ none)) with
          inFlight := some
            { purpose := .descRead n
              address := (s.channel n).descAddr + (s.channel n).fetchProgress.setWidth 24
              delivery := .deliver } } }))

/-- A grant to a chosen data request is translated through the channel's set. Where it passes, the transaction
is issued at the physical address with the set and page, the write word is the head staging word, and
REFERENCED of the entry is set. Where it fails, the channel faults with the kind of the failed check and the
arbiter selects again on the same event (R58, R61, R79, R81, R98, R104), among the channel requests that remain
and before the log writer begins a record for the fault (the model's choice, log entry 5). -/
def Obligations.DataGrantTranslated : Prop :=
  ∀ (s : State) (n : ChannelNo) (m : SetNo) (d : Transfer), canGrant s = true → mapRequest s = none →
    s.log.underWay = none → Chosen s n →
    (s.channel n).state = .running → (s.channel n).contents = some (.transfer d) →
    (s.channel n).mapSet = some m → (s.mapSet m).state = .ready →
    (∀ w rest, d.direction = .inbound → (s.channel n).staging = w :: rest →
      (∀ p addr,
        translateAccess (s.mapSet m) (d.start.setWidth 19 + (s.channel n).memoryCount.setWidth 19) .write =
          .passes p addr →
        exec .grant s = .next (finishEvent
          { s.putSet m ((s.mapSet m).putEntry p
              { (s.mapSet m).entry p with referenced := true }) with
            port :=
              { streakRecord s.port n (decide (∃ k, k ≠ n ∧ eligibleRequest s k ≠ none)) with
                inFlight := some
                  { purpose := .dataWrite n m p w, address := addr, delivery := .deliver } } })) ∧
      (∀ k,
        translateAccess (s.mapSet m) (d.start.setWidth 19 + (s.channel n).memoryCount.setWidth 19) .write =
          .fails k →
        exec .grant s = exec .grant (enterFaulted n k s))) ∧
    (d.direction = .outbound → (s.channel n).memoryCount < d.count →
      (s.channel n).staging.length < 4 → (s.channel n).short = false →
      (∀ p addr,
        translateAccess (s.mapSet m) (d.start.setWidth 19 + (s.channel n).memoryCount.setWidth 19) .read =
          .passes p addr →
        exec .grant s = .next (finishEvent
          { s.putSet m ((s.mapSet m).putEntry p
              { (s.mapSet m).entry p with referenced := true }) with
            port :=
              { streakRecord s.port n (decide (∃ k, k ≠ n ∧ eligibleRequest s k ≠ none)) with
                inFlight := some
                  { purpose := .dataRead n m p, address := addr, delivery := .deliver } } })) ∧
      (∀ k,
        translateAccess (s.mapSet m) (d.start.setWidth 19 + (s.channel n).memoryCount.setWidth 19) .read =
          .fails k →
        exec .grant s = exec .grant (enterFaulted n k s)))

/-- The four checks of a translation in their order, and the physical address where all pass: the frame times
4096 plus the offset (R78). A page of 64 or more fails for every set. -/
def Obligations.TranslationChecks : Prop :=
  ∀ (x : MapSet) (logical : LogAddr) (a : Access), x.limit.toNat ≤ 64 →
    (x.limit.toNat ≤ logical.toNat / 4096 → translateAccess x logical a = .fails .pageBeyond) ∧
    (∀ p : PageNo, logical.toNat / 4096 = p.val → p.val < x.limit.toNat →
      ((x.entry p).valid = false → translateAccess x logical a = .fails .pageInvalid) ∧
      ((x.entry p).valid = true → a = .read → (x.entry p).read = false →
        translateAccess x logical a = .fails .readDenied) ∧
      ((x.entry p).valid = true → a = .write → (x.entry p).write = false →
        translateAccess x logical a = .fails .writeDenied) ∧
      ((x.entry p).valid = true → (a = .read → (x.entry p).read = true) →
        (a = .write → (x.entry p).write = true) →
        ∃ addr, translateAccess x logical a = .passes p addr ∧
          addr.toNat = (x.entry p).frame.toNat * 4096 + logical.toNat % 4096))

/-- The checks of validation (R30, R36, R179). A descriptor is invalid exactly when one of the checks that
apply to its kind fails, and a valid one gives the contents its fields spell. -/
def Obligations.DescriptorChecks : Prop :=
  ∀ (w0 w1 w2 w3 : Word),
    (w0.toNat / 65536 = 0 →
      (validateDescriptor [w0, w1, w2, w3] = none ↔
        w0.getLsbD 3 = true ∨ w0.extractLsb' 4 10 ≠ 0 ∨ 2 ^ 18 ≤ w1.toNat ∨ 2 ^ 24 ≤ w2.toNat) ∧
      (∀ x, validateDescriptor [w0, w1, w2, w3] = some x → x = .linkOnly (w2.extractLsb' 0 24))) ∧
    (w0.toNat / 65536 ≠ 0 →
      (validateDescriptor [w0, w1, w2, w3] = none ↔
        (w0.extractLsb' 14 2 ≠ 1 ∧ w0.extractLsb' 14 2 ≠ 2) ∨ w0.extractLsb' 4 10 ≠ 0 ∨
          2 ^ 18 ≤ w1.toNat ∨ (w0.getLsbD 3 = false ∧ 2 ^ 24 ≤ w2.toNat) ∨
          (w0.getLsbD 2 = true ∧ 2 ^ 24 ≤ w3.toNat)) ∧
      (∀ x, validateDescriptor [w0, w1, w2, w3] = some x → x = .transfer
        { count := w0.extractLsb' 16 16
          direction := if w0.extractLsb' 14 2 = 1 then .inbound else .outbound
          start := w1.extractLsb' 0 18
          notify := w0.getLsbD 0
          hold := w0.getLsbD 1
          link := if w0.getLsbD 3 then none else some (w2.extractLsb' 0 24)
          altLink := if w0.getLsbD 2 then some (w3.extractLsb' 0 24) else none }))

/-! ### The transitions that come about on an event -/

/-- A channel whose completion condition holds carries out the settling sequence from step REPORT; the condition
is that of R69. Where it does not hold BLOCK COMPLETE does nothing (the model's choice, log entry 2). -/
def Obligations.BlockCompletes : Prop :=
  ∀ (s : State) (n : ChannelNo),
    (∀ d, (s.channel n).state = .running → (s.channel n).contents = some (.transfer d) →
      (s.channelInFlight n = false →
        (d.direction = .inbound ∧ ((s.channel n).memoryCount = d.count ∨
            (s.channel n).short = true ∧ (s.channel n).staging = []) ∨
          d.direction = .outbound ∧
            ((s.channel n).exchanged = d.count ∨ (s.channel n).short = true)) →
        exec (.blockComplete n) s = .next (finishChannelEvent n (settleReport n d s))) ∧
      ((s.channelInFlight n = true ∨
          (d.direction = .inbound ∧ (s.channel n).memoryCount ≠ d.count ∧
            ((s.channel n).short = false ∨ (s.channel n).staging ≠ [])) ∨
          d.direction = .outbound ∧ (s.channel n).exchanged ≠ d.count ∧ (s.channel n).short = false) →
        exec (.blockComplete n) s = .next s)) ∧
    ((s.channel n).state ≠ .running ∨ (∀ d, (s.channel n).contents ≠ some (.transfer d)) →
      exec (.blockComplete n) s = .next s)

/-- A HALTING channel with nothing in flight and its slot empty posts HALTED, enters HALTED, and HALT completes
with OK (R19). An ABORTING one with nothing in flight posts ABORTED with the words fixed at the taking, enters
IDLE with its short flag and stall counter cleared, and ABORT completes with OK (R25). An abandoned transaction
still counts as in flight (the model's choice, log entries 8 and 21). A post that waited is
made when its slot has emptied, and the transition goes on (R10, R41). Where nothing of the kind is due the rows
do nothing (the model's choice, log entry 2). -/
def Obligations.HaltingAndAbortingLeft : Prop :=
  ∀ (s : State) (n : ChannelNo),
    (∀ (words : BitVec 16), (s.channel n).state = .halting →
      s.channelInFlight n = false → (s.channel n).pendingEvent = none →
      (s.channel n).request ≠ some .fail → commandOn s .halt n = true →
      ((s.channel n).resume = some .fetching ∧ words = 0 ∨
        (s.channel n).resume = some .running ∧ ∃ d, (s.channel n).contents = some (.transfer d) ∧
          words = wordsDone (s.channel n) d) →
      ∀ posted, posted = makePost n .halted words s →
      exec (.leaveHalting n) s = .next (finishEvent (commandEnded .ok
        (posted.putChannel n { posted.channel n with state := .halted }))) ∧
      exec (.waitingPost n) s = exec (.leaveHalting n) s) ∧
    (∀ (words : BitVec 16), (s.channel n).state = .aborting →
      s.channelInFlight n = false → (s.channel n).pendingEvent = none →
      (s.channel n).request = none → commandOn s .abort n = true →
      (s.channel n).abortWordsDone = some words →
      ∀ posted, posted = makePost n .aborted words s →
      exec (.leaveAborting n) s = .next (finishEvent (commandEnded .ok
        (posted.putChannel n { posted.channel n with
          state := .idle
          abortWordsDone := none
          short := false
          stallCounter := 0 })))) ∧
    (∀ (step : SettlingStep) (d : Transfer), (s.channel n).state = .settling step →
      (s.channel n).contents = some (.transfer d) → (s.channel n).pendingEvent = none →
      exec (.waitingPost n) s = .next (finishChannelEvent n (settleFrom n step d s))) ∧
    ((s.channel n).state ≠ .halting ∨ s.channelInFlight n = true ∨
        (s.channel n).pendingEvent ≠ none → exec (.leaveHalting n) s = .next s) ∧
    ((s.channel n).state ≠ .aborting ∨ s.channelInFlight n = true ∨
        (s.channel n).pendingEvent ≠ none → exec (.leaveAborting n) s = .next s) ∧
    ((s.channel n).pendingEvent ≠ none → exec (.waitingPost n) s = .next s) ∧
    ((∀ step d, (s.channel n).state = .settling step → (s.channel n).contents ≠ some (.transfer d)) →
      (s.channel n).state ≠ .halting ∨ s.channelInFlight n = true →
      exec (.waitingPost n) s = .next s)

/-- A drained load enters READING with its set cleared (R85), and a waiting WRITE ENTRY whose transaction has
completed replaces its entry and completes with OK (R91). Where nothing waits, or the transaction is still in
flight, the two rows do nothing (the model's choice, log entry 2). -/
def Obligations.DrainAndRewriteEnd : Prop :=
  ∀ (s : State),
    (∀ l, s.loader = some l → l.phase = .draining → s.setInUse l.set = false →
      exec .drainEnd s = .next (finishEvent
        { s.putSet l.set
            { s.mapSet l.set with entries := Vector.replicate 64 PageEntry.cleared } with
          loader := some { l with phase := .reading, progress := 0 } })) ∧
    ((∀ l, s.loader = some l → l.phase = .reading ∨ s.setInUse l.set = true) →
      exec .drainEnd s = .next s) ∧
    (∀ (l : Latched) (m : SetNo) (p : PageNo), s.command.inProgress = some l → l.command = .writeEntry →
      l.a.toNat = m.val → l.b.toNat = p.val → s.entryInUse m p = false →
      exec .writeEntryReplace s = .next (finishEvent (commandEnded .ok
        (s.putSet m ((s.mapSet m).putEntry p
          { valid := l.c.getLsbD 31
            read := l.c.getLsbD 30
            write := l.c.getLsbD 29
            frame := l.c.extractLsb' 0 12
            referenced := false
            modified := false }))))) ∧
    ((∀ l, s.command.inProgress = some l → l.command ≠ .writeEntry ∨
        s.entryInUse (setOfOperand l.a) (pageOfOperand l.b) = true) →
      exec .writeEntryReplace s = .next s)

/-- In RUNNING, with no record under way, a channel on the list and no LOG STOP waiting, the writer begins a
ring record in slot W while U is below C (R137), and the overflow record in the reserve slot while U equals C,
its fields fixed at that event (R144). A waiting LOG STOP completes once no record is under way, with BUS-ERROR
where the record was abandoned (R148). Otherwise the rows do nothing (the model's choice, log entry 2). -/
def Obligations.LogRecordsBegin : Prop :=
  ∀ (s : State) (n : ChannelNo) (others : List ChannelNo),
    (s.log.underWay = none → s.log.state = .running → logStopWaits s = false →
      s.log.faultOrder = n :: others →
      s.log.unconsumed < s.log.capacity →
      exec .logRecordBegin s = .next (finishEvent { s with
        log := { s.log with
          underWay := some
            { target := .channel n, slot := s.log.writeIndex.setWidth 11, written := 0 } } })) ∧
    (∀ r, s.log.underWay = none → s.log.state = .running → logStopWaits s = false →
      s.log.faultOrder = n :: others →
      s.log.unconsumed = s.log.capacity → (s.channel n).fault = some (.unlogged r) →
      exec .overflowRecordBegin s = .next (finishEvent { s with
        log := { s.log with
          underWay := some
            { target := .overflow
                { channel := n
                  descAddr := r.descAddr
                  logical := r.logical
                  waiting := BitVec.ofNat 16 s.log.faultOrder.length
                  stamp := s.timer.tickCount }
              slot := s.log.capacity
              written := 0 } } })) ∧
    (s.log.underWay = none → logStopWaits s = true →
      exec .logStopComplete s = .next (finishEvent (commandEnded
        (if s.log.state = .error then .busError else .ok)
        { s with log := { s.log with state := .off } }))) ∧
    (s.log.underWay ≠ none ∨ s.log.state ≠ .running ∨ logStopWaits s = true ∨ s.log.faultOrder = [] ∨
        s.log.capacity ≤ s.log.unconsumed → exec .logRecordBegin s = .next s) ∧
    (s.log.underWay ≠ none ∨ s.log.state ≠ .running ∨ logStopWaits s = true ∨ s.log.faultOrder = [] ∨
        s.log.unconsumed ≠ s.log.capacity → exec .overflowRecordBegin s = .next s) ∧
    (s.log.underWay ≠ none ∨ logStopWaits s = false → exec .logStopComplete s = .next s)

/-- What entering FAULTED does, and all that it changes: the record of the channel, the answer to a standing
request, the delivery of its transaction, the tail of the fault order list, the FAULT cause, and a HALT in
progress on the channel, which completes with BAD-STATE (R11, R19, R132). -/
def Obligations.FaultEntry : Prop :=
  ∀ (s : State) (n : ChannelNo) (k : FaultKind), ∀ halt,
    halt = ((s.channel n).state == .halting && commandOn s .halt n) →
    enterFaulted n k s =
      { (s.putChannel n (faultedChannel s n k)).putSlot n
          (turnedAwaySlot (s.slot n) (s.channel n).request) with
        port := abandonedPort n s.port
        log := { s.log with faultOrder := s.log.faultOrder ++ [n] }
        interrupts := { s.interrupts with
          fault := true
          command := s.interrupts.command || halt }
        command := if halt then { s.command with inProgress := none, lastResult := .badState }
          else s.command }

/-- A post joins the tail of a queue below 24 records, and is the head of an empty one, whose head age becomes
0. At 24 records it becomes the channel's pending event and the channel joins the tail of the wait list
(R9, R115). -/
def Obligations.PostJoinsQueue : Prop :=
  ∀ (s : State) (n : ChannelNo) (k : EventKind) (words : BitVec 16),
    (s.queue.records.length < 24 →
      makePost n k words s = { s with queue := { s.queue with
        records := s.queue.records ++ [postedRecord s n k words]
        headAge := if s.queue.records = [] then 0 else s.queue.headAge } }) ∧
    (24 ≤ s.queue.records.length →
      makePost n k words s =
        { s.putChannel n { s.channel n with pendingEvent := some (postedRecord s n k words) } with
          queue := { s.queue with waitList := s.queue.waitList ++ [n] } })

/-- The three steps of the settling sequence (R39, R41 to R45). -/
def Obligations.SettlingSteps : Prop :=
  ∀ (s : State) (n : ChannelNo) (d : Transfer),
    ((s.channel n).short = false → d.notify = false → settleReport n d s = settleHold n d s) ∧
    (∀ k, ((s.channel n).short = true ∧ k = .short ∨
        (s.channel n).short = false ∧ d.notify = true ∧ k = .done) →
      ((s.channel n).pendingEvent = none → settleReport n d s =
        settleHold n d (makePost n k (wordsDone (s.channel n) d) s)) ∧
      ((s.channel n).pendingEvent ≠ none → settleReport n d s =
        s.putChannel n { s.channel n with state := .settling .report })) ∧
    (d.hold = false → settleHold n d s = settleSelect n d s) ∧
    (d.hold = true → (s.channel n).pendingEvent = none → ∀ posted,
      posted = makePost n .held (wordsDone (s.channel n) d) s →
      settleHold n d s = posted.putChannel n { posted.channel n with state := .holding }) ∧
    (d.hold = true → (s.channel n).pendingEvent ≠ none →
      settleHold n d s = s.putChannel n { s.channel n with state := .settling .hold }) ∧
    (∀ addr, ((s.channel n).short = true ∧ d.altLink = some addr ∨
        ((s.channel n).short = false ∨ d.altLink = none) ∧ d.link = some addr) →
      (addr.toNat % 4 = 0 → settleSelect n d s = s.putChannel n
        { s.channel n with
          state := .fetching
          descAddr := addr
          fetchProgress := 0
          fetched := []
          contents := none }) ∧
      (addr.toNat % 4 ≠ 0 → settleSelect n d s =
        enterFaulted n .descFormat (s.putChannel n { s.channel n with descAddr := addr }))) ∧
    (((s.channel n).short = false ∨ d.altLink = none) → d.link = none →
      ((s.channel n).pendingEvent = none →
        ∀ posted, posted = makePost n .chainEnd (wordsDone (s.channel n) d) s →
        settleSelect n d s = posted.putChannel n
          { posted.channel n with
            state := .idle
            fetchProgress := 0
            fetched := []
            contents := none }) ∧
      ((s.channel n).pendingEvent ≠ none →
        settleSelect n d s = s.putChannel n { s.channel n with state := .settling .select }))

/-- What a channel adds to an event that has reached it: the transition of the row that is due, and nothing
where none is (R7, R10, R19, R22, R25, R41, R52, R69). That a block found complete is settled before the standing
request is met, on CONTINUE too, is the model's choice (log entry 6), and so is that an abandoned transaction still
counts as in flight (log entries 8 and 21). -/
def Obligations.ChannelGoesOn : Prop :=
  ∀ (s : State) (n : ChannelNo),
    (resumedStep s n = none → leaveHaltingDue s n = false → leaveAbortingDue s n = false →
      completedBlock s n = none → requestDue (s.channel n) = false →
      finishChannelEvent n s = finishEvent s) ∧
    (resumedStep s n ≠ none → .next (finishChannelEvent n s) = exec (.waitingPost n) s) ∧
    (leaveHaltingDue s n = true → .next (finishChannelEvent n s) = exec (.leaveHalting n) s) ∧
    (leaveAbortingDue s n = true → .next (finishChannelEvent n s) = exec (.leaveAborting n) s) ∧
    (completedBlock s n ≠ none → .next (finishChannelEvent n s) = exec (.blockComplete n) s) ∧
    (resumedStep s n = none → leaveHaltingDue s n = false → leaveAbortingDue s n = false →
      completedBlock s n = none → requestDue (s.channel n) = true →
      .next (finishChannelEvent n s) = exec (.waitingRequestMet n) s)

/-- What the end of an event can change, in every state, and what it carries out: the row that is due first, in
the order drain, WRITE ENTRY, LOG STOP, ring record, overflow record, grant, whose own event goes on in the same
way; and nothing but the levels of EVENTS and INTOUT where none is due (R79, R85, R91, R100, R106, R109, R125, R129,
R137, R144, R148). That a grant comes before a record which a refusal of that grant makes due is the model's choice
(log entry 5). -/
def Obligations.EventEndFrame : Prop :=
  ∀ (s : State),
    EventEnd s (finishEvent s) ∧
    (drainedLoad s ≠ none → .next (finishEvent s) = exec .drainEnd s) ∧
    (drainedLoad s = none →
      (releasedWriteEntry s ≠ none → .next (finishEvent s) = exec .writeEntryReplace s) ∧
      (releasedWriteEntry s = none →
        (logStopDue s = true → .next (finishEvent s) = exec .logStopComplete s) ∧
        (logStopDue s = false →
          (ringRecordDue s ≠ none → .next (finishEvent s) = exec .logRecordBegin s) ∧
          (overflowRecordDue s ≠ none → .next (finishEvent s) = exec .overflowRecordBegin s) ∧
          (ringRecordDue s = none → overflowRecordDue s = none →
            (canGrant s = true → .next (finishEvent s) = exec .grant s) ∧
            ((canGrant s = true →
                mapRequest s = none ∧ logRequest s = none ∧ eligibleChannels s = []) →
              finishEvent s = refreshInterrupts s)))))

/-! ### Invariants -/

/-- The state after reset meets every invariant of the model. -/
def Obligations.ResetMeetsInvariants : Prop :=
  QueueInv State.reset ∧ FaultInv State.reset ∧ LogInv State.reset ∧ AccountInv State.reset ∧
    BusyInv State.reset ∧ SetsInv State.reset ∧ InterruptInv State.reset ∧ SlotInv State.reset ∧
    StallInv State.reset ∧ FetchInv State.reset ∧ RangeInv State.reset ∧ NothingDue State.reset

/-- Every step keeps the bound of the event queue and its agreement with the post wait list (R114, R116). -/
def Obligations.QueueInvariantKept : Prop :=
  ∀ (s t : State), QueueInv s → step s = .next t → QueueInv t

/-- Every step keeps the agreement of the FAULTED states, the fault records, the fault order list and the ring
record under way (R12, R133, R137). -/
def Obligations.FaultInvariantKept : Prop :=
  ∀ (s t : State), FaultInv s → step s = .next t → FaultInv t

/-- Every step keeps the log's ranges: the region in the physical space, W a slot of the ring, U at most C, FULL
only while U equals C, no sequence number 0, and a record under way in its slot (R134, R135, R136, R139). -/
def Obligations.LogInvariantKept : Prop :=
  ∀ (s t : State), LogInv s → step s = .next t → LogInv t

/-- Every step keeps account of every word of every block, with at most 4 words staged, and the kind and delivery
of the transaction in flight in agreement with the state of its channel (R55, R56, R96, R107). That a channel comes
to HALTED only when its abandoned transaction has ended, one from before a fault too, is the model's choice (log
entries 8 and 21). -/
def Obligations.WordAccountKept : Prop :=
  ∀ (s t : State), AccountInv s → step s = .next t → AccountInv t

/-- Every step keeps a command in progress waiting for what its rule names (R162, R167), and the map sets, their
limits and the loader record in agreement (R73, R76, R95). -/
def Obligations.LongCommandsAndSetsKept : Prop :=
  ∀ (s t : State), step s = .next t →
    (BusyInv s → BusyInv t) ∧ (SetsInv s → SetsInv t)

/-- Every step keeps the conversation of every slot: answer valid only with request valid and nothing standing,
and no request standing where its state answers it on arrival (R50, R51, R53, R54). -/
def Obligations.SlotInvariantKept : Prop :=
  ∀ (s t : State), SlotInv s → step s = .next t → SlotInv t

/-- Every step carries out, on its own event, everything that its event makes due: no transition, answer, record
or grant is left over (R41, R52, R69, R100, R137, R144). -/
def Obligations.NothingLeftDue : Prop :=
  ∀ (s t : State), NothingDue s → step s = .next t → NothingDue t

/-- Every step keeps the ranges of the counters: stall counters within their limits (R158), fetches aligned and
counted, link-only runs at most 12 (R29, R32, R40), the ranges of the port, queue and timer (R102, R123, R124,
R153), and the levels of EVENTS and INTOUT (R125, R129). The fetches keep their account beside the account of the
transaction in flight and of the resume states, which WordAccountKept keeps. -/
def Obligations.CounterRangesKept : Prop :=
  ∀ (s t : State), step s = .next t →
    (StallInv s → StallInv t) ∧ (AccountInv s → FetchInv s → FetchInv t) ∧
      (RangeInv s → RangeInv t) ∧ (InterruptInv s → InterruptInv t)
end

