-- ==== Sys2Proof/Laws/State.lean ====
section
/-! SUPPORT. What each update of a table of the state leaves and changes, so that no proof unfolds one. -/

namespace Sys2Proof.Machine

variable (s : State) (n m : ChannelNo) (c d : Channel) (l k : Slot) (i j : SetNo) (x y : MapSet)

/-! ### Replacing a channel record -/

@[simp] theorem State.putChannel_slots : (s.putChannel n c).slots = s.slots := rfl
@[simp] theorem State.putChannel_sets : (s.putChannel n c).sets = s.sets := rfl
@[simp] theorem State.putChannel_loader : (s.putChannel n c).loader = s.loader := rfl
@[simp] theorem State.putChannel_port : (s.putChannel n c).port = s.port := rfl
@[simp] theorem State.putChannel_queue : (s.putChannel n c).queue = s.queue := rfl
@[simp] theorem State.putChannel_log : (s.putChannel n c).log = s.log := rfl
@[simp] theorem State.putChannel_timer : (s.putChannel n c).timer = s.timer := rfl
@[simp] theorem State.putChannel_command : (s.putChannel n c).command = s.command := rfl
@[simp] theorem State.putChannel_interrupts : (s.putChannel n c).interrupts = s.interrupts := rfl
@[simp] theorem State.putChannel_control : (s.putChannel n c).control = s.control := rfl
@[simp] theorem State.putChannel_readData : (s.putChannel n c).readData = s.readData := rfl
@[simp] theorem State.putChannel_tickDraws : (s.putChannel n c).tickDraws = s.tickDraws := rfl
@[simp] theorem State.putChannel_pending : (s.putChannel n c).pending = s.pending := rfl
@[simp] theorem State.slot_putChannel : (s.putChannel n c).slot m = s.slot m := rfl
@[simp] theorem State.mapSet_putChannel : (s.putChannel n c).mapSet i = s.mapSet i := rfl
@[simp] theorem State.channelInFlight_putChannel :
    (s.putChannel n c).channelInFlight m = s.channelInFlight m := rfl
@[simp] theorem State.setInUse_putChannel : (s.putChannel n c).setInUse i = s.setInUse i := rfl
@[simp] theorem State.entryInUse_putChannel (p : PageNo) :
    (s.putChannel n c).entryInUse i p = s.entryInUse i p := rfl

@[simp] theorem State.channel_putChannel_self : (s.putChannel n c).channel n = c := by
  simp [State.channel, State.putChannel]

theorem State.channel_putChannel_of_ne (h : m ≠ n) : (s.putChannel n c).channel m = s.channel m := by
  have : n.val ≠ m.val := fun e => h (Fin.ext e.symm)
  simp [State.channel, State.putChannel, this]

/-- A read of any record after one has been replaced. -/
theorem State.channel_putChannel :
    (s.putChannel n c).channel m = if m = n then c else s.channel m := by
  by_cases h : m = n
  · subst h; simp
  · simp [h, State.channel_putChannel_of_ne]

@[simp] theorem State.putChannel_putChannel :
    (s.putChannel n c).putChannel n d = s.putChannel n d := by
  simp [State.putChannel]

@[simp] theorem State.putChannel_channel : s.putChannel n (s.channel n) = s := by
  simp [State.putChannel, State.channel]

/-! ### Replacing the pins of a slot -/

@[simp] theorem State.putSlot_channels : (s.putSlot n l).channels = s.channels := rfl
@[simp] theorem State.putSlot_sets : (s.putSlot n l).sets = s.sets := rfl
@[simp] theorem State.putSlot_loader : (s.putSlot n l).loader = s.loader := rfl
@[simp] theorem State.putSlot_port : (s.putSlot n l).port = s.port := rfl
@[simp] theorem State.putSlot_queue : (s.putSlot n l).queue = s.queue := rfl
@[simp] theorem State.putSlot_log : (s.putSlot n l).log = s.log := rfl
@[simp] theorem State.putSlot_timer : (s.putSlot n l).timer = s.timer := rfl
@[simp] theorem State.putSlot_command : (s.putSlot n l).command = s.command := rfl
@[simp] theorem State.putSlot_interrupts : (s.putSlot n l).interrupts = s.interrupts := rfl
@[simp] theorem State.putSlot_control : (s.putSlot n l).control = s.control := rfl
@[simp] theorem State.putSlot_readData : (s.putSlot n l).readData = s.readData := rfl
@[simp] theorem State.putSlot_tickDraws : (s.putSlot n l).tickDraws = s.tickDraws := rfl
@[simp] theorem State.putSlot_pending : (s.putSlot n l).pending = s.pending := rfl
@[simp] theorem State.channel_putSlot : (s.putSlot n l).channel m = s.channel m := rfl
@[simp] theorem State.mapSet_putSlot : (s.putSlot n l).mapSet i = s.mapSet i := rfl
@[simp] theorem State.channelInFlight_putSlot :
    (s.putSlot n l).channelInFlight m = s.channelInFlight m := rfl
@[simp] theorem State.setInUse_putSlot : (s.putSlot n l).setInUse i = s.setInUse i := rfl
@[simp] theorem State.entryInUse_putSlot (p : PageNo) :
    (s.putSlot n l).entryInUse i p = s.entryInUse i p := rfl

@[simp] theorem State.slot_putSlot_self : (s.putSlot n l).slot n = l := by
  simp [State.slot, State.putSlot]

theorem State.slot_putSlot_of_ne (h : m ≠ n) : (s.putSlot n l).slot m = s.slot m := by
  have : n.val ≠ m.val := fun e => h (Fin.ext e.symm)
  simp [State.slot, State.putSlot, this]

/-- A read of any slot after one has been replaced. -/
theorem State.slot_putSlot : (s.putSlot n l).slot m = if m = n then l else s.slot m := by
  by_cases h : m = n
  · subst h; simp
  · simp [h, State.slot_putSlot_of_ne]

@[simp] theorem State.putSlot_putSlot : (s.putSlot n l).putSlot n k = s.putSlot n k := by
  simp [State.putSlot]

@[simp] theorem State.putSlot_slot : s.putSlot n (s.slot n) = s := by
  simp [State.putSlot, State.slot]

/-- A record and the pins of a slot are replaced in either order; slots come last. -/
@[simp] theorem State.putSlot_putChannel :
    (s.putSlot n l).putChannel m c = (s.putChannel m c).putSlot n l := rfl

/-! ### Replacing a map set -/

@[simp] theorem State.putSet_channels : (s.putSet i x).channels = s.channels := rfl
@[simp] theorem State.putSet_slots : (s.putSet i x).slots = s.slots := rfl
@[simp] theorem State.putSet_loader : (s.putSet i x).loader = s.loader := rfl
@[simp] theorem State.putSet_port : (s.putSet i x).port = s.port := rfl
@[simp] theorem State.putSet_queue : (s.putSet i x).queue = s.queue := rfl
@[simp] theorem State.putSet_log : (s.putSet i x).log = s.log := rfl
@[simp] theorem State.putSet_timer : (s.putSet i x).timer = s.timer := rfl
@[simp] theorem State.putSet_command : (s.putSet i x).command = s.command := rfl
@[simp] theorem State.putSet_interrupts : (s.putSet i x).interrupts = s.interrupts := rfl
@[simp] theorem State.putSet_control : (s.putSet i x).control = s.control := rfl
@[simp] theorem State.putSet_readData : (s.putSet i x).readData = s.readData := rfl
@[simp] theorem State.putSet_tickDraws : (s.putSet i x).tickDraws = s.tickDraws := rfl
@[simp] theorem State.putSet_pending : (s.putSet i x).pending = s.pending := rfl
@[simp] theorem State.channel_putSet : (s.putSet i x).channel m = s.channel m := rfl
@[simp] theorem State.slot_putSet : (s.putSet i x).slot m = s.slot m := rfl
@[simp] theorem State.channelInFlight_putSet :
    (s.putSet i x).channelInFlight m = s.channelInFlight m := rfl
@[simp] theorem State.setInUse_putSet : (s.putSet i x).setInUse j = s.setInUse j := rfl
@[simp] theorem State.entryInUse_putSet (p : PageNo) :
    (s.putSet i x).entryInUse j p = s.entryInUse j p := rfl

@[simp] theorem State.mapSet_putSet_self : (s.putSet i x).mapSet i = x := by
  simp [State.mapSet, State.putSet]

theorem State.mapSet_putSet_of_ne (h : j ≠ i) : (s.putSet i x).mapSet j = s.mapSet j := by
  have : i.val ≠ j.val := fun e => h (Fin.ext e.symm)
  simp [State.mapSet, State.putSet, this]

/-- A read of any set after one has been replaced. -/
theorem State.mapSet_putSet : (s.putSet i x).mapSet j = if j = i then x else s.mapSet j := by
  by_cases h : j = i
  · subst h; simp
  · simp [h, State.mapSet_putSet_of_ne]

@[simp] theorem State.putSet_putSet : (s.putSet i x).putSet i y = s.putSet i y := by
  simp [State.putSet]

@[simp] theorem State.putSet_mapSet : s.putSet i (s.mapSet i) = s := by
  simp [State.putSet, State.mapSet]

/-! ### Entries of a map set -/

variable (p q : PageNo) (e f : PageEntry)

@[simp] theorem MapSet.putEntry_state : (x.putEntry p e).state = x.state := rfl
@[simp] theorem MapSet.putEntry_limit : (x.putEntry p e).limit = x.limit := rfl

@[simp] theorem MapSet.entry_putEntry_self : (x.putEntry p e).entry p = e := by
  simp [MapSet.entry, MapSet.putEntry]

theorem MapSet.entry_putEntry_of_ne (h : q ≠ p) : (x.putEntry p e).entry q = x.entry q := by
  have : p.val ≠ q.val := fun a => h (Fin.ext a.symm)
  simp [MapSet.entry, MapSet.putEntry, this]

/-- A read of any entry after one has been replaced. -/
theorem MapSet.entry_putEntry : (x.putEntry p e).entry q = if q = p then e else x.entry q := by
  by_cases h : q = p
  · subst h; simp
  · simp [h, MapSet.entry_putEntry_of_ne]

/-- Every entry of a set that has been cleared (R75). -/
theorem MapSet.entry_cleared (st : SetState) (limit : BitVec 7) :
    MapSet.entry { state := st, limit := limit, entries := clearedEntries } p = PageEntry.cleared := by
  simp [MapSet.entry, clearedEntries]

/-! ### Tables -/

@[simp] theorem getElem_mapTable {α β : Type} {k : Nat} (g : α → β) (v : Vector α k) (a : Nat)
    (h : a < k) : (mapTable g v)[a] = g v[a] := by
  simp [mapTable]

/-- Reading a record, a slot or a set looks at its table only, whatever else has been updated. -/
theorem State.channel_of_channels {t : State} (h : t.channels = s.channels) :
    t.channel n = s.channel n := by
  simp [State.channel, h]

theorem State.slot_of_slots {t : State} (h : t.slots = s.slots) : t.slot n = s.slot n := by
  simp [State.slot, h]

theorem State.mapSet_of_sets {t : State} (h : t.sets = s.sets) : t.mapSet i = s.mapSet i := by
  simp [State.mapSet, h]

/-- Every channel number stands in the list of them. -/
theorem mem_channelNumbers : n ∈ channelNumbers := by
  revert n; decide

theorem channelNumbers_nodup : channelNumbers.Nodup := by decide

/-! ### Updates of one field -/

@[simp] theorem State.channel_with_loader (v : Option Loader) :
    State.channel { s with loader := v } n = s.channel n := rfl
@[simp] theorem State.slot_with_loader (v : Option Loader) :
    State.slot { s with loader := v } n = s.slot n := rfl
@[simp] theorem State.mapSet_with_loader (v : Option Loader) :
    State.mapSet { s with loader := v } i = s.mapSet i := rfl
@[simp] theorem State.channel_with_port (v : Port) :
    State.channel { s with port := v } n = s.channel n := rfl
@[simp] theorem State.slot_with_port (v : Port) :
    State.slot { s with port := v } n = s.slot n := rfl
@[simp] theorem State.mapSet_with_port (v : Port) :
    State.mapSet { s with port := v } i = s.mapSet i := rfl
@[simp] theorem State.channel_with_queue (v : EventQueue) :
    State.channel { s with queue := v } n = s.channel n := rfl
@[simp] theorem State.slot_with_queue (v : EventQueue) :
    State.slot { s with queue := v } n = s.slot n := rfl
@[simp] theorem State.mapSet_with_queue (v : EventQueue) :
    State.mapSet { s with queue := v } i = s.mapSet i := rfl
@[simp] theorem State.channel_with_log (v : LogWriter) :
    State.channel { s with log := v } n = s.channel n := rfl
@[simp] theorem State.slot_with_log (v : LogWriter) :
    State.slot { s with log := v } n = s.slot n := rfl
@[simp] theorem State.mapSet_with_log (v : LogWriter) :
    State.mapSet { s with log := v } i = s.mapSet i := rfl
@[simp] theorem State.channel_with_timer (v : Timer) :
    State.channel { s with timer := v } n = s.channel n := rfl
@[simp] theorem State.slot_with_timer (v : Timer) :
    State.slot { s with timer := v } n = s.slot n := rfl
@[simp] theorem State.mapSet_with_timer (v : Timer) :
    State.mapSet { s with timer := v } i = s.mapSet i := rfl
@[simp] theorem State.channel_with_command (v : CommandPort) :
    State.channel { s with command := v } n = s.channel n := rfl
@[simp] theorem State.slot_with_command (v : CommandPort) :
    State.slot { s with command := v } n = s.slot n := rfl
@[simp] theorem State.mapSet_with_command (v : CommandPort) :
    State.mapSet { s with command := v } i = s.mapSet i := rfl
@[simp] theorem State.channel_with_interrupts (v : Interrupts) :
    State.channel { s with interrupts := v } n = s.channel n := rfl
@[simp] theorem State.slot_with_interrupts (v : Interrupts) :
    State.slot { s with interrupts := v } n = s.slot n := rfl
@[simp] theorem State.mapSet_with_interrupts (v : Interrupts) :
    State.mapSet { s with interrupts := v } i = s.mapSet i := rfl
@[simp] theorem State.channel_with_control (v : Control) :
    State.channel { s with control := v } n = s.channel n := rfl
@[simp] theorem State.slot_with_control (v : Control) :
    State.slot { s with control := v } n = s.slot n := rfl
@[simp] theorem State.mapSet_with_control (v : Control) :
    State.mapSet { s with control := v } i = s.mapSet i := rfl
@[simp] theorem State.channel_with_readData (v : Word) :
    State.channel { s with readData := v } n = s.channel n := rfl
@[simp] theorem State.slot_with_readData (v : Word) :
    State.slot { s with readData := v } n = s.slot n := rfl
@[simp] theorem State.mapSet_with_readData (v : Word) :
    State.mapSet { s with readData := v } i = s.mapSet i := rfl
@[simp] theorem State.channel_with_tickDraws (v : Nat) :
    State.channel { s with tickDraws := v } n = s.channel n := rfl
@[simp] theorem State.slot_with_tickDraws (v : Nat) :
    State.slot { s with tickDraws := v } n = s.slot n := rfl
@[simp] theorem State.mapSet_with_tickDraws (v : Nat) :
    State.mapSet { s with tickDraws := v } i = s.mapSet i := rfl
@[simp] theorem State.channel_with_pending (v : List Instr) :
    State.channel { s with pending := v } n = s.channel n := rfl
@[simp] theorem State.slot_with_pending (v : List Instr) :
    State.slot { s with pending := v } n = s.slot n := rfl
@[simp] theorem State.mapSet_with_pending (v : List Instr) :
    State.mapSet { s with pending := v } i = s.mapSet i := rfl

end Sys2Proof.Machine
end

