-- ==== Sys2Proof/Laws/Ops.lean ====
section
/-! SUPPORT. What each shared operation does, said once, in the words of the claims. -/

namespace Sys2Proof.Machine

variable (s : State) (n m : ChannelNo)

/-! ### Answers and abandoned transactions -/

/-- An answer removes the request and drives the slot (R50). -/
theorem answerRequest_eq (a : Answer) :
    answerRequest n a s = (s.putChannel n { s.channel n with request := none }).putSlot n
      { s.slot n with answer := some a, answerValid := (s.slot n).lines.isSome } := rfl

/-- An answer on a later event, as the claims write it (R50). -/
theorem answerRequest_eq_answeredWaiting (a : Answer) :
    answerRequest n a s = answeredWaiting s n a { s.channel n with request := none } := rfl

/-- The answer of a state that turns requests away, as the claims write it. -/
theorem turnAwayAnswer_eq (r : LinkRequest) :
    turnAwayAnswer r = 
      match r with | .offer _ => .refuse | .ask => .refuse | .endBlock => .ack | .fail => .ack := by
  cases r <;> rfl

/-- Turning away clears the request and answers what stood on the slot (R11, R24, R53, R54). -/
theorem turnAway_eq :
    turnAway n s = (s.putChannel n { s.channel n with request := none }).putSlot n
      (turnedAwaySlot (s.slot n) (s.channel n).request) := by
  unfold turnAway turnedAwaySlot
  cases h : (s.channel n).request with
  | none =>
    have : ({ s.channel n with request := none } : Channel) = s.channel n := by rw [← h]
    rw [this, State.putChannel_channel, State.putSlot_slot]
  | some r =>
    show answerRequest n (turnAwayAnswer r) s = _
    rw [turnAwayAnswer_eq]
    rfl

/-- A channel that abandons its transaction changes the port alone (R96). -/
theorem discardTransaction_eq :
    discardTransaction n s = { s with port := abandonedPort n s.port } := by
  unfold discardTransaction abandonedPort
  cases h : s.port.inFlight with
  | none =>
    have : ({ s.port with inFlight := none } : Port) = s.port := by rw [← h]
    simp [this]
  | some t =>
    by_cases hc : t.purpose.requester = some n ∧ t.delivery = .deliver
    · simp [hc]
    · have : ({ s.port with inFlight := some t } : Port) = s.port := by rw [← h]
      simp only [hc, if_false, Option.map_some, this]

/-- A DISCARD transaction is one the channel still waits for (log entry 8). -/
theorem channelInFlight_of_abandonedPort {t : State} (h : t.port = abandonedPort n s.port) :
    t.channelInFlight m = s.channelInFlight m := by
  unfold State.channelInFlight
  rw [h, abandonedPort]
  cases hs : s.port.inFlight with
  | none => rfl
  | some x =>
    by_cases hc : x.purpose.requester = some n ∧ x.delivery = .deliver
    · simp only [hc, and_self, if_true, Option.map_some]
      rfl
    · simp only [hc, if_false, Option.map_some]

/-! ### Completing a command -/

/-- A command in progress completes with a result (R166). -/
theorem completeCommand_eq (r : ResultCode) : completeCommand r s = commandEnded r s := rfl

/-- HALT and ABORT complete where they are in progress on the channel (R19, R25). -/
theorem completeChannelCommand_eq (cmd : HostCommand) (r : ResultCode) :
    completeChannelCommand cmd n r s = if commandOn s cmd n then commandEnded r s else s := by
  unfold completeChannelCommand commandOn
  cases h : s.command.inProgress with
  | none => simp
  | some l => simp [completeCommand_eq]

/-! ### Posts -/

/-- The record a channel posts, as the claims write it (R112). -/
theorem eventRecord_eq (k : EventKind) (words : BitVec 16) :
    eventRecord s n k words = postedRecord s n k words := rfl

/-- The words done of a descriptor, as the claims write them (R1). -/
theorem transferWordsDone_eq (c : Channel) (d : Transfer) : c.transferWordsDone d = wordsDone c d := by
  unfold Channel.transferWordsDone wordsDone
  cases d.direction <;> rfl

/-! ### Alignment -/

/-- A multiple of 4 has its two low bits 0. -/
theorem aligned4_iff (a : PhysAddr) : aligned4 a = true ↔ a.toNat % 4 = 0 := by
  unfold aligned4
  rw [beq_iff_eq, ← BitVec.toNat_inj]
  simp

/-! ### Nothing to do at the end of an event -/

theorem endDrain_of_none (h : drainedLoad s = none) : endDrain s = s := by
  simp [endDrain, h]

theorem endWriteEntry_of_none (h : releasedWriteEntry s = none) : endWriteEntry s = s := by
  simp [endWriteEntry, h]

theorem endLogStop_of_not_due (h : logStopDue s = false) : endLogStop s = s := by
  simp [endLogStop, h]

theorem beginRingRecord_of_none (h : ringRecordDue s = none) : beginRingRecord s = s := by
  simp [beginRingRecord, h]

theorem beginOverflowRecord_of_none (h : overflowRecordDue s = none) : beginOverflowRecord s = s := by
  simp [beginOverflowRecord, h]

/-- A log writer for which nothing is due does nothing. -/
theorem logWork_eq_self (hl : logStopDue s = false) (hr : ringRecordDue s = none)
    (ho : overflowRecordDue s = none) : logWork s = s := by
  rw [logWork, endLogStop_of_not_due s hl, beginRingRecord_of_none s hr, beginOverflowRecord_of_none s ho]

/-- Where no grant may be made the arbiter does nothing (R100). -/
theorem arbitrate_of_cannot (h : canGrant s = false) : arbitrate s = s := by
  simp [arbitrate, h]

/-- Where no eligible request stands the arbiter does nothing (R100). -/
theorem arbitrate_of_no_request (hm : mapRequest s = none) (hl : logRequest s = none)
    (hc : eligibleChannels s = []) : arbitrate s = s := by
  have : chosenChannel s = none := by simp [chosenChannel, hc]
  unfold arbitrate
  simp only [hm, hl]
  split
  · simp only [grantChannels, this]
  · rfl

/-! ### Nothing to do at a channel -/

/-- A FAIL apart, a request stands in a state that holds requests waiting. -/
theorem meetWhileWaiting_of_not_fail (r : LinkRequest) (h : (r == .fail) = false) :
    meetWhileWaiting n r s = s := by
  cases r <;> first | rfl | cases h

/-- In RUNNING a request that is not due stands (R57, R63). -/
theorem meetInRunning_of_not_due (d : Transfer) (r : LinkRequest)
    (h : (match d.direction with
      | .inbound =>
        match r with
        | .offer _ =>
          decide ((s.channel n).exchanged < d.count) && !(s.channel n).short &&
            decide ((s.channel n).staging.length < 4)
        | _ => true
      | .outbound =>
        match r with
        | .ask => !(s.channel n).staging.isEmpty
        | _ => true) = false) : meetInRunning n d r s = s := by
  unfold meetInRunning
  cases r <;> cases hd : d.direction <;> simp only [hd, Bool.true_eq_false] at h ⊢
  · have : canTake (s.channel n) d = false := h
    simp only [this, Bool.false_eq_true, if_false]
  · cases hg : (s.channel n).staging with
    | nil => rfl
    | cons w rest => simp [hg] at h

/-- A request whose answer is not due stands as it is (R53, R54, R57, R63). -/
theorem meetRequest_of_not_due (h : requestDue (s.channel n) = false) : meetRequest n s = s := by
  unfold meetRequest
  obtain ⟨c, hc⟩ : ∃ c, c = s.channel n := ⟨_, rfl⟩
  have running := meetInRunning_of_not_due s n
  rw [← hc] at h running ⊢
  unfold requestDue at h
  clear hc
  show (match c.request with | none => s | some r => _) = s
  cases hr : c.request with
  | none => rfl
  | some r =>
    rw [hr] at h
    have waiting := meetWhileWaiting_of_not_fail s n r
    cases hst : c.state with
    | disabled | idle | aborting | faulted =>
      rw [hst] at h
      exact Bool.noConfusion (show true = false from h)
    | fetching | settling _ | holding | halting | halted =>
      rw [hst] at h
      exact waiting h
    | running =>
      rw [hst] at h
      cases hx : c.contents with
      | none =>
        rw [hx] at h
        exact waiting h
      | some x =>
        rw [hx] at h
        cases x with
        | linkOnly a => exact waiting h
        | transfer d => exact running d r h

theorem completeBlock_of_none (h : completedBlock s n = none) : completeBlock n s = s := by
  simp [completeBlock, h]

theorem resumeSettling_of_none (h : resumedStep s n = none) : resumeSettling n s = s := by
  simp [resumeSettling, h]

theorem leaveHalting_of_not_due (h : leaveHaltingDue s n = false) : leaveHalting n s = s := by
  simp [leaveHalting, h]

theorem leaveAborting_of_not_due (h : leaveAbortingDue s n = false) : leaveAborting n s = s := by
  simp [leaveAborting, h]

/-- A channel for which nothing is due adds nothing to an event. -/
theorem carryOn_eq_self (hs : resumedStep s n = none) (hh : leaveHaltingDue s n = false)
    (ha : leaveAbortingDue s n = false) (hb : completedBlock s n = none)
    (hr : requestDue (s.channel n) = false) : carryOn n s = s := by
  unfold carryOn
  simp only [resumeSettling_of_none s n hs, leaveHalting_of_not_due s n hh,
    leaveAborting_of_not_due s n ha, completeBlock_of_none s n hb, meetRequest_of_not_due s n hr]

/-! ### The states in which each transition is due -/

theorem resumedStep_of_state (h : ∀ step, (s.channel n).state ≠ .settling step) :
    resumedStep s n = none := by
  unfold resumedStep
  obtain ⟨c, hc⟩ : ∃ c, c = s.channel n := ⟨_, rfl⟩
  rw [← hc] at h ⊢
  cases hs : c.state with
  | settling step => exact absurd hs (h step)
  | _ => simp only [hs]

theorem leaveHaltingDue_of_state (h : (s.channel n).state ≠ .halting) :
    leaveHaltingDue s n = false := by
  simp [leaveHaltingDue, h]

theorem leaveAbortingDue_of_state (h : (s.channel n).state ≠ .aborting) :
    leaveAbortingDue s n = false := by
  simp [leaveAbortingDue, h]

theorem completedBlock_of_state (h : (s.channel n).state ≠ .running) :
    completedBlock s n = none := by
  unfold completedBlock
  obtain ⟨c, hc⟩ : ∃ c, c = s.channel n := ⟨_, rfl⟩
  rw [← hc] at h ⊢
  cases hs : c.state with
  | running => exact absurd hs h
  | _ => simp only [hs]

/-- The completed block of a RUNNING channel (R69). -/
theorem completedBlock_running (d : Transfer) (hs : (s.channel n).state = .running)
    (hc : (s.channel n).contents = some (.transfer d)) :
    completedBlock s n =
      if completionHolds (s.channel n) d (s.channelInFlight n) then some d else none := by
  unfold completedBlock
  simp only [hs, hc]

/-- The step at which a channel in SETTLING goes on (R41). -/
theorem resumedStep_settling (step : SettlingStep) (d : Transfer)
    (hs : (s.channel n).state = .settling step) (hc : (s.channel n).contents = some (.transfer d))
    (hp : (s.channel n).pendingEvent = none) : resumedStep s n = some (step, d) := by
  unfold resumedStep
  simp only [hs, hc, hp]

/-- In a state that only waits, a channel without a standing FAIL adds nothing to an event. -/
theorem carryOn_of_waiting (hs : (s.channel n).state = .fetching ∨ (s.channel n).state = .holding ∨
      (s.channel n).state = .halted)
    (hr : (s.channel n).request ≠ some .fail) : carryOn n s = s := by
  apply carryOn_eq_self
  · exact resumedStep_of_state s n (fun step e => by rcases hs with h | h | h <;> rw [h] at e <;> cases e)
  · exact leaveHaltingDue_of_state s n (fun e => by rcases hs with h | h | h <;> rw [h] at e <;> cases e)
  · exact leaveAbortingDue_of_state s n (fun e => by rcases hs with h | h | h <;> rw [h] at e <;> cases e)
  · exact completedBlock_of_state s n (fun e => by rcases hs with h | h | h <;> rw [h] at e <;> cases e)
  · obtain ⟨c, hc⟩ : ∃ c, c = s.channel n := ⟨_, rfl⟩
    rw [← hc] at hs hr ⊢
    unfold requestDue
    rcases hq : c.request with _ | r
    · rfl
    · rw [hq] at hr
      have : (r == LinkRequest.fail) = false := by
        simpa using hr
      rcases hs with h | h | h <;> simp only [h, answersAtOnce, Bool.false_or] <;> exact this

/-- In a state that answers every request, a channel without a standing request adds nothing. -/
theorem carryOn_of_answering (hs : (s.channel n).state = .disabled ∨ (s.channel n).state = .idle ∨
      (s.channel n).state = .faulted)
    (hr : (s.channel n).request = none) : carryOn n s = s := by
  apply carryOn_eq_self
  · exact resumedStep_of_state s n (fun step e => by rcases hs with h | h | h <;> rw [h] at e <;> cases e)
  · exact leaveHaltingDue_of_state s n (fun e => by rcases hs with h | h | h <;> rw [h] at e <;> cases e)
  · exact leaveAbortingDue_of_state s n (fun e => by rcases hs with h | h | h <;> rw [h] at e <;> cases e)
  · exact completedBlock_of_state s n (fun e => by rcases hs with h | h | h <;> rw [h] at e <;> cases e)
  · simp only [requestDue, hr]

end Sys2Proof.Machine
end

