-- ==== Sys2Proof/Laws/Checks.lean ====
section
/-! SUPPORT. Checks that decide the hypotheses of the claims on a given state, each proved to give the claim's
own predicate. -/

namespace Sys2Proof.Machine

variable (s : State)

/-- Nothing is due at channel `n`. -/
def channelQuiet (n : ChannelNo) : Bool :=
  (resumedStep s n).isNone && !leaveHaltingDue s n && !leaveAbortingDue s n &&
    (completedBlock s n).isNone && !requestDue (s.channel n)

/-- The check of `NothingDue`. -/
def quietCheck : Bool :=
  channelNumbers.all (channelQuiet s) && (drainedLoad s).isNone && (releasedWriteEntry s).isNone &&
    !logStopDue s && (ringRecordDue s).isNone && (overflowRecordDue s).isNone &&
    (!canGrant s ||
      (mapRequest s).isNone && (logRequest s).isNone && (eligibleChannels s).isEmpty)

theorem nothingDue_of_check (h : quietCheck s = true) : NothingDue s := by
  simp only [quietCheck, Bool.and_eq_true, List.all_eq_true, Bool.not_eq_true', Option.isNone_iff_eq_none,
    Bool.or_eq_true, List.isEmpty_iff] at h
  obtain ⟨⟨⟨⟨⟨⟨channels, drain⟩, rewrite⟩, stop⟩, ring⟩, overflow⟩, grant⟩ := h
  have quiet : ∀ n, resumedStep s n = none ∧ leaveHaltingDue s n = false ∧
      leaveAbortingDue s n = false ∧ completedBlock s n = none ∧ requestDue (s.channel n) = false := by
    intro n
    have := channels n (mem_channelNumbers n)
    simpa only [channelQuiet, Bool.and_eq_true, Bool.not_eq_true', Option.isNone_iff_eq_none,
      and_assoc] using this
  exact {
    settling := fun n => (quiet n).1
    halting := fun n => (quiet n).2.1
    aborting := fun n => (quiet n).2.2.1
    block := fun n => (quiet n).2.2.2.1
    request := fun n => (quiet n).2.2.2.2
    drain := drain
    rewrite := rewrite
    logStop := stop
    ring := ring
    overflow := overflow
    grant := fun can => by
      rcases grant with no | ⟨⟨map, log⟩, chans⟩
      · rw [can] at no; cases no
      · exact ⟨map, log, chans⟩ }

/-- The words of the block of a channel are in account. -/
def wordsCheck (c : Channel) (d : Transfer) (inFlight : Nat) : Bool :=
  match d.direction with
  | .inbound =>
    c.exchanged.toNat == c.memoryCount.toNat + c.staging.length && decide (c.exchanged ≤ d.count) &&
      decide (c.staging.length ≤ 4)
  | .outbound =>
    decide (c.exchanged.toNat + c.staging.length ≤ c.memoryCount.toNat) &&
      decide (c.memoryCount.toNat + inFlight ≤ d.count.toNat) &&
      decide (c.staging.length + (if c.short then 0 else inFlight) ≤ 4) &&
      (!c.short || c.staging.isEmpty)

/-- The account of channel `n`. -/
def channelAccount (n : ChannelNo) : Bool :=
  contentsFit (s.channel n) &&
    ((s.channel n).staging.isEmpty ||
      inBlock (s.channel n).state && (s.channel n).contents.isSome) &&
    (match (s.channel n).contents with
      | some (.transfer d) =>
        !inBlock (s.channel n).state ||
          wordsCheck (s.channel n) d (if s.channelInFlight n then 1 else 0)
      | _ => true) &&
    match s.port.inFlight with
    | none => true
    | some t => t.purpose.requester != some n || transactionFits (s.channel n) t

/-- The check of `AccountInv`. -/
def accountCheck : Bool := channelNumbers.all (channelAccount s)

theorem blockAccount_of_check (n : ChannelNo) (d : Transfer)
    (h : wordsCheck (s.channel n) d (if s.channelInFlight n then 1 else 0) = true) :
    blockAccount s n d := by
  unfold wordsCheck at h
  unfold blockAccount
  cases hd : d.direction with
  | inbound =>
    simp only [hd, Bool.and_eq_true, beq_iff_eq, decide_eq_true_eq] at h ⊢
    exact ⟨h.1.1, h.1.2, h.2⟩
  | outbound =>
    simp only [hd, Bool.and_eq_true, decide_eq_true_eq, Bool.or_eq_true, Bool.not_eq_true',
      List.isEmpty_iff] at h ⊢
    refine ⟨h.1.1.1, h.1.1.2, h.1.2, fun e => ?_⟩
    rcases h.2 with no | empty
    · rw [e] at no; cases no
    · exact empty

theorem accountInv_of_check (h : accountCheck s = true) : AccountInv s := by
  simp only [accountCheck, List.all_eq_true] at h
  have parts : ∀ n, contentsFit (s.channel n) = true ∧
      ((s.channel n).staging.isEmpty = true ∨
        inBlock (s.channel n).state = true ∧ (s.channel n).contents.isSome = true) ∧
      (∀ d, (s.channel n).contents = some (.transfer d) → inBlock (s.channel n).state = true →
        wordsCheck (s.channel n) d (if s.channelInFlight n then 1 else 0) = true) ∧
      (∀ t, s.port.inFlight = some t → t.purpose.requester = some n →
        transactionFits (s.channel n) t = true) := by
    intro n
    have := h n (mem_channelNumbers n)
    simp only [channelAccount, Bool.and_eq_true, Bool.or_eq_true] at this
    obtain ⟨⟨⟨fit, staged⟩, account⟩, flight⟩ := this
    refine ⟨fit, staged, fun d hd hb => ?_, fun t ht hr => ?_⟩
    · rw [hd] at account
      simpa [hb] using account
    · rw [ht] at flight
      simpa [hr] using flight
  exact {
    contents := fun n => (parts n).1
    staged := fun n ne => by
      rcases (parts n).2.1 with e | b
      · exact absurd (List.isEmpty_iff.mp e) ne
      · exact b
    account := fun n d hb hd => blockAccount_of_check s n d ((parts n).2.2.1 d hd hb)
    fits := fun n t ht hr => (parts n).2.2.2 t ht hr }

end Sys2Proof.Machine
end

