-- ==== Sys2Proof/Laws/Commands.lean ====
section
/-! SUPPORT. The command port: what a presented command comes to, and its checks in the words of the
claims. -/

namespace Sys2Proof.Machine

variable (s : State) (cmd : HostCommand) (act : Latched → State → State)

/-- A command presented while the port is BUSY only sets REFUSED (R164). -/
theorem presentCommand_busy (h : s.command.inProgress ≠ none) :
    presentCommand cmd act s = { s with command := { s.command with refused := true } } := by
  have : s.command.inProgress.isSome = true := Option.isSome_iff_ne_none.mpr h
  simp only [presentCommand, this, if_true, discardCommand]

/-- The checks look at nothing that the port's acceptance changes (R163, R165). -/
theorem commandCheck_acceptCode (l : Latched) (code : BitVec 8) :
    commandCheck l (acceptCode code s) = commandCheck l s := by
  unfold commandCheck
  have h1 : operandsInRange l (acceptCode code s) = operandsInRange l s := by
    unfold operandsInRange; cases l.command <;> rfl
  have h2 : stateCheck l (acceptCode code s) = stateCheck l s := by
    unfold stateCheck; cases l.command <;> rfl
  rw [h1, h2]

/-- A command that fails a check completes at once and changes no owner (R165). -/
theorem presentCommand_refused (idle : PortIdle s) (r : ResultCode)
    (h : commandCheck (latch cmd s) s = some r) :
    presentCommand cmd act s =
      refreshInterrupts (afterCommand (hostCommandCode cmd) r 0 0 0 s) := by
  unfold PortIdle at idle
  simp only [presentCommand, idle, Option.isSome_none, Bool.false_eq_true, if_false,
    commandCheck_acceptCode, h]
  rfl

/-- A command that passes the checks is in progress when its owner acts on it (R163, R165). -/
theorem presentCommand_taken (idle : PortIdle s) (h : commandCheck (latch cmd s) s = none) :
    presentCommand cmd act s = act (latch cmd s) (duringCommand cmd s) := by
  unfold PortIdle at idle
  simp only [presentCommand, idle, Option.isSome_none, Bool.false_eq_true, if_false,
    commandCheck_acceptCode, h]
  rfl

/-- A command that completes on the event of its write leaves the port as the claims write it (R166). -/
theorem completeCommand_duringCommand (r : ResultCode) :
    completeCommand r (duringCommand cmd s) = afterCommand (hostCommandCode cmd) r 0 0 0 s := rfl

/-! ### The operand ranges and the state checks -/

theorem channelOfOperand_eq {w : Word} {n : ChannelNo} (h : w.toNat = n.val) :
    channelOfOperand w = n := by
  apply Fin.ext
  simp only [channelOfOperand, h, Fin.ofNat]
  exact Nat.mod_eq_of_lt n.isLt

theorem setOfOperand_eq {w : Word} {m : SetNo} (h : w.toNat = m.val) : setOfOperand w = m := by
  apply Fin.ext
  simp only [setOfOperand, h, Fin.ofNat]
  exact Nat.mod_eq_of_lt m.isLt

theorem pageOfOperand_eq {w : Word} {p : PageNo} (h : w.toNat = p.val) : pageOfOperand w = p := by
  apply Fin.ext
  simp only [pageOfOperand, h, Fin.ofNat]
  exact Nat.mod_eq_of_lt p.isLt

/-- PROBE's access operand is 1 or 2 (R94). -/
theorem probeAccess_iff (w : Word) : (w == 1 || w == 2) = true ↔ w.toNat = 1 ∨ w.toNat = 2 := by
  simp only [Bool.or_eq_true, beq_iff_eq, ← BitVec.toNat_inj]
  rfl

/-- Stage 2 is the ranges of the claims (R165). -/
theorem operandsInRange_iff : operandsInRange (latch cmd s) s = true ↔ LegalOperands cmd s := by
  have probe := probeAccess_iff s.command.operandC
  have space : physicalWords = 2 ^ 24 := rfl
  cases cmd <;> unfold operandsInRange LegalOperands latch <;>
    unfold isChannel at * <;> unfold isSet at * <;>
    simp only [Bool.and_eq_true, decide_eq_true_eq, probe] <;> rw [space] at * <;> omega

theorem badStateUnless_iff (b : Bool) (r : ResultCode) :
    badStateUnless b = some r ↔ r = .badState ∧ b = false := by
  cases b <;> simp [badStateUnless, eq_comm]

/-- CLEAR FAULT's check, in the words of the claims (R27). -/
theorem clearFaultCheck_iff (c : Channel) (log : LogState) (r : ResultCode) :
    clearFaultCheck c log = some r ↔
      (r = .badState ∧ c.state ≠ .faulted) ∨
        (r = .faultPending ∧ c.state = .faulted ∧ isUnlogged c.fault = true ∧ log ≠ .off) := by
  unfold clearFaultCheck
  by_cases hs : c.state = .faulted
  · simp only [hs, ne_eq, not_true_eq_false, if_false, and_false, false_or, true_and]
    rcases hf : c.fault with _ | (r' | k)
    · simp [isUnlogged]
    · by_cases hl : log = .off
      · simp [isUnlogged, hl]
      · simp only [hl, if_false, isUnlogged, not_false_eq_true, and_true, Option.some.injEq]
        exact eq_comm
    · simp [isUnlogged]
  · simp only [ne_eq, hs, not_false_eq_true, if_true, and_true, false_and, and_false, or_false,
      Option.some.injEq]
    exact eq_comm

/-- The commands whose state check looks at the channel of OPERAND A (R165). -/
def checksChannel : HostCommand → Bool
  | .bind | .unbind | .start | .halt | .continueChannel | .abort | .clearFault => true
  | .readChannel | .loadMap | .writeEntry | .readEntry | .probe => false
  | .setLog | .logStop | .logConsumed => false

/-- Stage 3 fails exactly as the claims say (R165). -/
theorem stateCheck_iff (n : ChannelNo) (r : ResultCode)
    (h : checksChannel cmd = true → s.command.operandA.toNat = n.val) :
    stateCheck (latch cmd s) s = some r ↔ CheckFails cmd (s.channel n) s r := by
  have channel : checksChannel cmd = true →
      s.channel (channelOfOperand s.command.operandA) = s.channel n := fun e => by
    rw [channelOfOperand_eq (h e)]
  clear h
  unfold stateCheck CheckFails latch
  obtain ⟨c, hc⟩ : ∃ c, c = s.channel n := ⟨_, rfl⟩
  obtain ⟨e, he⟩ : ∃ e, e = s.channel (channelOfOperand s.command.operandA) := ⟨_, rfl⟩
  rw [← hc, ← he] at channel
  simp only [← hc, ← he]
  clear hc he
  cases cmd with
  | setLog => simp [badStateUnless_iff]
  | logStop => simp [badStateUnless_iff]
  | logConsumed =>
    by_cases hu : s.log.unconsumed.toNat < s.command.operandA.toNat
    · simp only [hu, if_true, and_true, Option.some.injEq]
      exact eq_comm
    · simp [hu]
  | clearFault => rw [channel rfl]; exact clearFaultCheck_iff c _ r
  | continueChannel =>
    rw [channel rfl]
    cases c.state <;> simp [badStateUnless_iff, continueTakenIn]
  | abort =>
    rw [channel rfl]
    cases c.state <;> simp [badStateUnless_iff, abortTakenIn]
  | unbind =>
    rw [channel rfl]
    cases c.state <;> cases c.pendingEvent <;> simp [badStateUnless_iff]
  | bind | start | halt =>
    rw [channel rfl]
    cases c.state <;> simp [badStateUnless_iff]
  | readChannel | loadMap | writeEntry | readEntry | probe => simp

/-- A command whose operands are legal and whose state check passes is taken (R165). -/
theorem commandCheck_none (n : ChannelNo)
    (h : checksChannel cmd = true → s.command.operandA.toNat = n.val)
    (legal : LegalOperands cmd s) (passes : ∀ r, ¬ CheckFails cmd (s.channel n) s r) :
    commandCheck (latch cmd s) s = none := by
  rw [commandCheck, if_pos ((operandsInRange_iff s cmd).mpr legal)]
  cases hs : stateCheck (latch cmd s) s with
  | none => rfl
  | some r => exact absurd ((stateCheck_iff s cmd n r h).mp hs) (passes r)

/-- A command without a state check is taken on legal operands (R165). -/
theorem commandCheck_none_of_legal (free : cmd = .readChannel ∨ cmd = .loadMap ∨ cmd = .writeEntry ∨
    cmd = .readEntry ∨ cmd = .probe) (legal : LegalOperands cmd s) :
    commandCheck (latch cmd s) s = none := by
  refine commandCheck_none s cmd 0 (fun e => ?_) legal (fun r e => ?_) <;>
    rcases free with rfl | rfl | rfl | rfl | rfl <;> cases e

end Sys2Proof.Machine
end

