-- ==== Sys2Proof/Laws/Steps.lean ====
section
/-! SUPPORT. What a step can be, said once, and the order in which stalled channels time out. -/

namespace Sys2Proof.Machine

/-- A step carries out the command at the front of the queue, or passes one microsecond. -/
theorem step_cases {s t : State} (h : step s = .next t) :
    (s.pending = [] ∧ t = microsecond s) ∨
      ∃ c rest, s.pending = c :: rest ∧ exec c { s with pending := rest } = .next t := by
  unfold step at h
  cases hp : s.pending with
  | nil =>
    rw [hp] at h
    injection h with h
    exact Or.inl ⟨rfl, h.symm⟩
  | cons c rest =>
    rw [hp] at h
    exact Or.inr ⟨c, rest, rfl, h⟩

/-- Every command answers a next state. -/
theorem exec_next (c : Instr) (s : State) : ∃ t, exec c s = .next t := by
  cases c <;> exact ⟨_, rfl⟩

/-- Every step answers a next state. -/
theorem step_next (s : State) : ∃ t, step s = .next t := by
  unfold step
  cases s.pending with
  | nil => exact ⟨_, rfl⟩
  | cons c rest => exact exec_next c _

/-- An invariant that every command keeps, and that a microsecond keeps, is kept by every step: the queue of
commands is not looked at. -/
theorem step_keeps {Inv : State → Prop} (queue : ∀ s q, Inv s → Inv { s with pending := q })
    (command : ∀ c s t, Inv s → exec c s = .next t → Inv t)
    (idle : ∀ s, Inv s → Inv (microsecond s)) :
    ∀ s t, Inv s → step s = .next t → Inv t := by
  intro s t inv h
  rcases step_cases h with ⟨-, rfl⟩ | ⟨c, rest, -, h⟩
  · exact idle s inv
  · exact command c _ t (queue s rest inv) h

/-- Inserting by rank adds the one channel. -/
theorem insertByRank_perm (rank : ChannelNo → Nat) (n : ChannelNo) (l : List ChannelNo) :
    (insertByRank rank n l).Perm (n :: l) := by
  induction l with
  | nil => exact List.Perm.refl _
  | cons m rest ih =>
    unfold insertByRank
    split
    · exact List.Perm.refl _
    · exact (ih.cons m).trans (List.Perm.swap n m rest)

/-- An order by rank holds the same channels. -/
theorem orderByRank_perm (rank : ChannelNo → Nat) (l : List ChannelNo) :
    (orderByRank rank l).Perm l := by
  induction l with
  | nil => exact List.Perm.refl _
  | cons n rest ih => exact (insertByRank_perm rank n _).trans (ih.cons n)

end Sys2Proof.Machine
end

