-- ==== Sys2Proof/Laws/Words.lean ====
section
/-! SUPPORT. The lines of a slot, and the words that the part shows and writes, as their fields side by side. -/

namespace Sys2Proof.Machine

/-! ### The lines of a slot (R50) -/

@[simp] theorem linkRequestOfLines_code (r : LinkRequest) (w : Word) :
    linkRequestOfLines r.code (r.data.getD w) = r := by cases r <;> rfl

/-- The command that the lines of a request spell is the request's row. -/
@[simp] theorem commandOfLines_code (n : ChannelNo) (r : LinkRequest) (w : Word) :
    commandOfLines n r.code (r.data.getD w) = requestInstr n r := by simp [commandOfLines]

@[simp] theorem LinkRequest.data_eq_some (r : LinkRequest) (w : Word) :
    r.data = some w ↔ r = .offer w := by cases r <;> simp [LinkRequest.data]

@[simp] theorem Answer.data_eq_some (a : Answer) (w : Word) :
    a.data = some w ↔ a = .give w := by cases a <;> simp [Answer.data]

/-- While answer valid is low a slot shows no answer. -/
theorem Slot.answer_hidden {l : Slot} (h : l.answerValid = false) :
    l.answerCode = none ∧ l.answerData = none := by
  simp [Slot.answerCode, Slot.answerData, Slot.standingAnswer, h]

/-- While answer valid is raised a slot shows the code and the word of its answer. -/
theorem Slot.answer_shown {l : Slot} {a : Answer} (h : l.answerValid = true) (e : l.answer = some a) :
    l.answerCode = some a.code ∧ l.answerData = a.data := by
  simp [Slot.answerCode, Slot.answerData, Slot.standingAnswer, h, e]

/-! ### Fields -/

/-- Two fields side by side are the field of their concatenation. -/
theorem field_append {v w : Nat} (x : BitVec v) (y : BitVec w) (low : Nat) :
    field (x ++ y) low = field x (w + low) ||| field y low := by
  apply BitVec.eq_of_getLsbD_eq
  intro i hi
  unfold field
  by_cases h1 : i < low
  · simp [h1, show i < w + low by omega]
  · by_cases h2 : i < w + low
    · simp [h1, hi, h2, BitVec.getLsbD_append, show i - low < w by omega]
    · simp [h1, hi, h2, BitVec.getLsbD_append, show ¬ i - low < w by omega,
        show i - low - w = i - (w + low) by omega]
      rw [BitVec.getLsbD_of_ge y _ (by omega)]
      exact fun e => Bool.noConfusion e

theorem field_zero (k low : Nat) : field (0#k) low = 0#32 := by
  simp [field]

/-- Zeros before a field. -/
theorem field_lead (k : Nat) {w : Nat} (y : BitVec w) (low : Nat) :
    field (0#k ++ y) low = field y low := by
  rw [field_append, field_zero, BitVec.zero_or]

/-- Zeros after a field. -/
theorem field_gap (k : Nat) {v : Nat} (x : BitVec v) (low : Nat) :
    field (x ++ 0#k) low = field x (k + low) := by
  rw [field_append, field_zero, BitVec.or_zero]

@[simp] theorem field_full (x : Word) : field x 0 = x := by
  simp [field]

/-- A bit of a field that stands inside the word. -/
theorem getLsbD_field {w : Nat} (x : BitVec w) (low i : Nat) (h : i < 32) :
    (field x low).getLsbD i = (decide (low ≤ i) && x.getLsbD (i - low)) := by
  unfold field
  by_cases h1 : i < low
  · simp [h1]
  · simp [h1, h, show low ≤ i by omega]

/-- A bit of a one-bit field. -/
theorem getLsbD_bitField (b : Bool) (low i : Nat) (h : i < 32) :
    (bitField b low).getLsbD i = (decide (i = low) && b) := by
  rw [bitField, getLsbD_field _ _ _ h]
  by_cases h1 : i = low
  · subst h1; simp
  · by_cases h2 : low ≤ i
    · cases b <;> simp [h1, h2, show ¬ i - low = 0 by omega]
    · simp [h1, h2]

/-! ### The registers of the window and the result words -/

/-- A channel number in four bits. -/
theorem ofNat_channel (n : ChannelNo) : BitVec.ofNat 4 n.val = BitVec.ofFin (w := 4) n := by
  simp

theorem or_reverse2 (a b : Word) :
    a ||| b = b ||| a := by
  ac_rfl

theorem or_reverse3 (a b c : Word) :
    a ||| b ||| c = c ||| b ||| a := by
  ac_rfl

theorem or_reverse4 (a b c d : Word) :
    a ||| b ||| c ||| d = d ||| c ||| b ||| a := by
  ac_rfl

theorem or_reverse5 (a b c d e : Word) :
    a ||| b ||| c ||| d ||| e = e ||| d ||| c ||| b ||| a := by
  ac_rfl

theorem or_reverse7 (a b c d e f g : Word) :
    a ||| b ||| c ||| d ||| e ||| f ||| g = g ||| f ||| e ||| d ||| c ||| b ||| a := by
  ac_rfl

/-- CONTROL (R173). -/
theorem controlWord_eq (c : Control) :
    controlWord c =
      0#27 ++ BitVec.ofBool c.logEnable ++ BitVec.ofBool c.faultEnable ++
      BitVec.ofBool c.commandEnable ++ BitVec.ofBool c.eventsEnable ++
      BitVec.ofBool c.masterEnable := by
  refine Eq.trans ?_ (field_full _)
  show _ = field (w := 27 + 1 + 1 + 1 + 1 + 1) _ 0
  unfold controlWord bitField
  rw [field_append, field_append, field_append, field_append, field_lead 27]
  exact or_reverse5 _ _ _ _ _

/-- INTERRUPT STATUS (R175). -/
theorem interruptWord_eq (i : Interrupts) :
    interruptWord i =
      0#27 ++ BitVec.ofBool i.log ++ BitVec.ofBool i.fault ++ BitVec.ofBool i.command ++
      BitVec.ofBool i.events ++ 0#1 := by
  refine Eq.trans ?_ (field_full _)
  show _ = field (w := 27 + 1 + 1 + 1 + 1 + 1) _ 0
  unfold interruptWord bitField
  rw [field_gap 1, field_append, field_append, field_append, field_lead 27]
  exact or_reverse4 _ _ _ _

/-- COMMAND STATUS (R176). -/
theorem commandStatusWord_eq (p : CommandPort) :
    commandStatusWord p =
      0#8 ++ p.lastCode ++ 0#4 ++ p.lastResult.code ++ 0#6 ++ BitVec.ofBool p.refused ++
      BitVec.ofBool p.inProgress.isSome := by
  refine Eq.trans ?_ (field_full _)
  show _ = field (w := 8 + 8 + 4 + 4 + 6 + 1 + 1) _ 0
  unfold commandStatusWord bitField
  rw [field_append, field_append, field_gap 6, field_append, field_gap 4, field_lead 8]
  exact or_reverse4 _ _ _ _

/-- The last code as COMMAND reads (R176). -/
theorem lastCodeWord_eq (x : BitVec 8) :
    field x 0 =
      0#24 ++ x := by
  refine Eq.trans ?_ (field_full _)
  show _ = field (w := 24 + 8) _ 0
  rw [field_lead 24]

/-- Word 0 of an event record (R182). -/
theorem EventRecord.word0_eq (r : EventRecord) :
    r.word0 =
      r.kind.code ++ BitVec.ofNat 4 r.channel.val ++ r.descAddr := by
  refine Eq.trans ?_ (field_full _)
  show _ = field (w := 4 + 4 + 24) _ 0
  unfold EventRecord.word0
  rw [field_append, field_append, ofNat_channel]

/-- Word 1 of an event record (R182). -/
theorem EventRecord.word1_eq (r : EventRecord) :
    r.word1 =
      r.stamp ++ r.wordsDone := by
  refine Eq.trans ?_ (field_full _)
  show _ = field (w := 16 + 16) _ 0
  unfold EventRecord.word1
  rw [field_append]

/-- EVENT STATUS (R178). -/
theorem eventStatusWord_eq (q : EventQueue) :
    eventStatusWord q =
      0#8 ++ q.headAge ++ 0#3 ++ BitVec.ofNat 5 q.waitList.length ++ 0#3 ++
      BitVec.ofNat 5 q.records.length := by
  refine Eq.trans ?_ (field_full _)
  show _ = field (w := 8 + 8 + 3 + 5 + 3 + 5) _ 0
  unfold eventStatusWord
  rw [field_append, field_gap 3, field_append, field_gap 3, field_lead 8]
  exact or_reverse3 _ _ _

/-- EVENT SETTINGS (R178). -/
theorem eventSettingsWord_eq (q : EventQueue) :
    eventSettingsWord q =
      0#16 ++ q.delay ++ q.threshold := by
  refine Eq.trans ?_ (field_full _)
  show _ = field (w := 16 + 8 + 8) _ 0
  unfold eventSettingsWord
  rw [field_append, field_lead 16]
  exact or_reverse2 _ _

/-- LOG STATUS (R178). -/
theorem logStatusWord_eq (l : LogWriter) :
    logStatusWord l =
      0#5 ++ l.unconsumed ++ 0#14 ++ l.state.code := by
  refine Eq.trans ?_ (field_full _)
  show _ = field (w := 5 + 11 + 14 + 2) _ 0
  unfold logStatusWord
  rw [field_append, field_gap 14, field_lead 5]
  exact or_reverse2 _ _

/-- LOG POSITION (R178). -/
theorem logPositionWord_eq (l : LogWriter) :
    logPositionWord l =
      l.nextSequence ++ 0#6 ++ l.writeIndex := by
  refine Eq.trans ?_ (field_full _)
  show _ = field (w := 16 + 6 + 10) _ 0
  unfold logPositionWord
  rw [field_append, field_gap 6]
  exact or_reverse2 _ _

/-- TICK COUNT and TIMER PERIOD (R178). -/
theorem halfWord_eq (x : BitVec 16) :
    field x 0 =
      0#16 ++ x := by
  refine Eq.trans ?_ (field_full _)
  show _ = field (w := 16 + 16) _ 0
  rw [field_lead 16]

/-- A physical address in a word (R176, R181). -/
theorem addressWord_eq (x : BitVec 24) :
    field x 0 =
      0#8 ++ x := by
  refine Eq.trans ?_ (field_full _)
  show _ = field (w := 8 + 24) _ 0
  rw [field_lead 8]

/-- A logical address in a word (R181). -/
theorem logicalWord_eq (x : BitVec 19) :
    field x 0 =
      0#13 ++ x := by
  refine Eq.trans ?_ (field_full _)
  show _ = field (w := 13 + 19) _ 0
  rw [field_lead 13]

/-- RESULT 0 of READ ENTRY (R180). -/
theorem imageOfEntry_eq (e : PageEntry) :
    imageOfEntry e =
      BitVec.ofBool e.valid ++ BitVec.ofBool e.read ++ BitVec.ofBool e.write ++
      BitVec.ofBool e.referenced ++ BitVec.ofBool e.modified ++ 0#15 ++ e.frame := by
  refine Eq.trans ?_ (field_full _)
  show _ = field (w := 1 + 1 + 1 + 1 + 1 + 15 + 12) _ 0
  unfold imageOfEntry bitField
  rw [field_append, field_gap 15, field_append, field_append, field_append, field_append]

/-- RESULT 1 of READ ENTRY (R176). -/
theorem entryResult1_eq (x : MapSet) :
    entryResult1 x =
      0#23 ++ BitVec.ofBool (setStateBit x.state) ++ 0#1 ++ x.limit := by
  refine Eq.trans ?_ (field_full _)
  show _ = field (w := 23 + 1 + 1 + 7) _ 0
  unfold entryResult1 bitField
  rw [field_append, field_gap 1, field_lead 23]
  exact or_reverse2 _ _

/-- RESULT 0 of READ CHANNEL (R176). -/
theorem channelResult0_eq (c : Channel) :
    channelResult0 c =
      0#4 ++ c.linkOnlyRun ++ 0#3 ++ BitVec.ofBool c.short ++ faultCode c ++ pendingCode c ++
      0#1 ++ BitVec.ofNat 3 c.staging.length ++ 0#1 ++ shownSet c ++ c.state.code := by
  refine Eq.trans ?_ (field_full _)
  show _ = field (w := 4 + 4 + 3 + 1 + 4 + 4 + 1 + 3 + 1 + 3 + 4) _ 0
  unfold channelResult0 bitField
  rw [field_append, field_append, field_gap 1, field_append, field_gap 1, field_append,
    field_append, field_append, field_gap 3, field_lead 4]
  exact or_reverse7 _ _ _ _ _ _ _

/-- RESULT 1 of READ CHANNEL (R176). -/
theorem channelResult1_eq (c : Channel) :
    channelResult1 c =
      c.exchanged ++ c.memoryCount := by
  refine Eq.trans ?_ (field_full _)
  show _ = field (w := 16 + 16) _ 0
  unfold channelResult1
  rw [field_append]

/-- Word 0 of a log record (R181). -/
theorem logWord0_eq (q : BitVec 16) (k : BitVec 8) (n : ChannelNo) :
    field q 16 ||| field k 8 ||| field (BitVec.ofFin (w := 4) n) 4 =
      q ++ k ++ BitVec.ofNat 4 n.val ++ 0#4 := by
  refine Eq.trans ?_ (field_full _)
  show _ = field (w := 16 + 8 + 4 + 4) _ 0
  rw [field_gap 4, field_append, field_append, ofNat_channel]

/-- Word 3 of a log record (R181). -/
theorem twoHalves_eq (x y : BitVec 16) :
    field x 16 ||| field y 0 =
      x ++ y := by
  refine Eq.trans ?_ (field_full _)
  show _ = field (w := 16 + 16) _ 0
  rw [field_append]

end Sys2Proof.Machine
end

