-- ==== Sys2Proof/Tests/Slice0.lean ====
section
/-! SUPPORT. Tests. The first part runs single commands on small states and holds a field or two of the outcome
against the rule named beside it. The second part shows, for every claim with hypotheses, states that meet
them, each clause at a boundary of its range where it has one. -/

namespace Sys2Proof.Tests

open Sys2Proof.Machine

/-! ### Small states -/

/-- The state that an outcome gives. -/
def result (o : Host.Outcome State Fault Refusal) : State :=
  match o with
  | .next t => t
  | _ => State.reset

/-- One step with `c` in front of the queue. -/
def after (c : Instr) (s : State) : State := result (step { s with pending := [c] })

/-- The operand registers hold `a`, `b` and `c`. -/
def operands (a b c : Word) (s : State) : State :=
  { s with command := { s.command with operandA := a, operandB := b, operandC := c } }

/-- The master enable is set. -/
def enabled (s : State) : State := { s with control := { s.control with masterEnable := true } }

/-- A transaction is in flight. -/
def flying (p : Purpose) (a : PhysAddr) (d : Delivery) (s : State) : State :=
  { s with port := { s.port with inFlight := some { purpose := p, address := a, delivery := d } } }

/-- A command is in progress. -/
def busy (cmd : HostCommand) (a b c : Word) (s : State) : State :=
  { s with command := { s.command with inProgress := some { command := cmd, a := a, b := b, c := c } } }

/-- An INBOUND block of `count` words at logical 4096, the end of its chain. -/
def inbound (count : BitVec 16) : Transfer where
  count := count
  direction := .inbound
  start := 4096
  notify := true
  hold := false
  link := none
  altLink := none

/-- An OUTBOUND block of `count` words at logical 4096, the end of its chain. -/
def outbound (count : BitVec 16) : Transfer := { inbound count with direction := .outbound }

/-- An IDLE channel bound to set 0. -/
def idleChannel : Channel := { Channel.reset with state := .idle, mapSet := some 0 }

/-- A channel FETCHING at 4096 with the words it has kept. -/
def fetchingChannel (kept : List Word) : Channel :=
  { idleChannel with
    state := .fetching
    descAddr := 4096
    fetchProgress := BitVec.ofNat 3 kept.length
    fetched := kept }

/-- A channel RUNNING on `d`. -/
def runningChannel (d : Transfer) (exchanged memory : BitVec 16) (staging : List Word) : Channel :=
  { idleChannel with
    state := .running
    descAddr := 4096
    fetchProgress := 4
    contents := some (.transfer d)
    exchanged := exchanged
    memoryCount := memory
    staging := staging }

/-- An unlogged fault record of channel 3. -/
def someFault : FaultRecord where
  kind := .busError
  channel := 3
  descAddr := 4096
  logical := 4097
  wordsDone := 2
  stamp := 5

/-- Channel 3 FAULTED with that record. -/
def faultedThree : Channel :=
  { idleChannel with state := .faulted, descAddr := 4096, fault := some (.unlogged someFault) }

/-- Reset, with a record for channel 3. -/
def three (c : Channel) : State := State.reset.putChannel 3 c

/-- An event record of channel 3. -/
def someEvent : EventRecord where
  kind := .done
  channel := 3
  descAddr := 4096
  wordsDone := 2
  stamp := 9

/-- Set 0 with one entry at page 1. -/
def mapped (e : PageEntry) (s : State) : State := s.putSet 0 ((s.mapSet 0).putEntry 1 e)

/-- An entry with every right, frame 5. -/
def open5 : PageEntry := { PageEntry.cleared with valid := true, read := true, write := true, frame := 5 }

/-- A log in RUNNING with base 8192 and capacity 2. -/
def logging (s : State) : State :=
  { s with log := { s.log with state := .running, base := 8192, capacity := 2 } }

/-- The event queue holds `k` records. -/
def queued (k : Nat) (s : State) : State :=
  { s with queue := { s.queue with records := List.replicate k someEvent } }

/-! ### What is not a command of its row -/

theorem test_illformed_softReset : WellFormed (.softReset 0x7FFFFFFF) = false := by decide

theorem test_illformed_masterEnable : WellFormed (.masterEnable 0x80000001) = false := by decide

theorem test_illformed_interruptEnable : WellFormed (.interruptEnable 0x80000000) = false := by decide

theorem test_illformed_unknownCommand : WellFormed (.unknownCommand 0x22) = false := by decide

theorem test_illformed_registerWrite : WellFormed (.registerWrite 15 0) = false := by decide

/-- The table gives no row any bits, so no word spells a command. -/
theorem test_no_word_spells_a_command : decodeTableWord 8 1 = none := by decide

/-! ### Resets, the window and the interrupt causes -/

/-- R2, R153: power-on leaves every channel DISABLED and the period 1000. -/
theorem test_powerOnReset :
    let t := after .powerOnReset (three (runningChannel (inbound 2) 0 0 []))
    (t.channel 3).state = .disabled ∧ t.timer.period = 1000 := by decide

/-- R2: soft reset answers a standing END with REFUSE; R110: a transaction in flight becomes an orphan. -/
theorem test_softReset :
    let s := (three { fetchingChannel [] with request := some .endBlock }).putSlot 3
      { Slot.reset with lines := some .endBlock }
    let t := after (.softReset 0x80000000) (flying (.descRead 3) 4096 .deliver s)
    (t.slot 3).answer = some .refuse ∧ t.port.inFlight.map Transaction.delivery = some .orphan := by
  decide

/-- R100, R109: setting the master enable grants a standing descriptor read on that event. -/
theorem test_masterEnable :
    (after (.masterEnable 1) (three (fetchingChannel []))).port.inFlight =
      some { purpose := .descRead 3, address := 4096, delivery := .deliver } := by decide

/-- R129: enabling a latched cause asserts INTOUT. -/
theorem test_interruptEnable :
    (after (.interruptEnable 0x8)
      { State.reset with interrupts := { Interrupts.reset with fault := true } }).interrupts.intout =
        true := by decide

/-- R127: a 1 in bit 3 clears FAULT and leaves COMMAND latched. -/
theorem test_interruptStatusClear :
    let t := after (.interruptStatusClear 0x8)
      { State.reset with interrupts := { Interrupts.reset with command := true, fault := true } }
    t.interrupts.fault = false ∧ t.interrupts.command = true := by decide

/-- R125: the head age at the delay raises EVENTS below the threshold. -/
theorem test_ageCondition :
    (after .ageCondition { State.reset with queue := { EventQueue.reset with
      records := [someEvent], threshold := 24, delay := 7, headAge := 7 } }).interrupts.events =
        true := by decide

/-- R118, R182: a pop returns stamp and words done of the head. -/
theorem test_pop :
    let t := after .pop (queued 1 State.reset)
    t.readData = 0x00090002 ∧ t.queue.records = [] := by decide

/-- R118: a pop of a full queue admits the waiting record of channel 3 at the tail. -/
theorem test_pop_admits_waiter :
    let s := queued 24 (three { idleChannel with pendingEvent := some { someEvent with stamp := 10 } })
    let t := after .pop { s with queue := { s.queue with waitList := [3] } }
    t.queue.records.length = 24 ∧ (t.channel 3).pendingEvent = none := by decide

/-- R124: threshold 0 is stored as 1 and the delay as written. -/
theorem test_eventSettingsWrite :
    windowRead (after (.eventSettingsWrite 0x0500) State.reset) 15 = 0x0501 := by decide

/-- R155: bits above bit 15 are not looked at, and the prescaler restarts. -/
theorem test_timerPeriodWrite :
    (after (.timerPeriodWrite 0x000A0064)
      { State.reset with timer := { Timer.reset with prescaler := 9 } }).timer =
        { period := 100, prescaler := 0, tickCount := 0 } := by decide

/-- R172: a write to IDENT has no effect and a read gives the part number. -/
theorem test_registerWrite :
    windowRead (after (.registerWrite 0 5) State.reset) 0 = 0x27400110 := by decide

/-- R163: a write to OPERAND B is stored. -/
theorem test_registerWrite_operand :
    (after (.registerWrite 6 77) State.reset).command.operandB = 77 := by decide

/-! ### Host commands -/

/-- R165: code 0x30 is BAD-COMMAND, and the last code shows it. -/
theorem test_unknownCommand :
    let t := after (.unknownCommand 0x30) State.reset
    t.command.lastResult = .badCommand ∧ t.command.lastCode = 0x30 := by decide

/-- R15: BIND leaves a DISABLED channel IDLE with its set. -/
theorem test_bind :
    let t := after .bind (operands 15 7 255 State.reset)
    (t.channel 15).state = .idle ∧ (t.channel 15).mapSet = some 7 := by decide

/-- R15, R165: map set 8 is BAD-OPERAND. -/
theorem test_bind_bad_operand :
    (after .bind (operands 0 8 0 State.reset)).command.lastResult = .badOperand := by decide

/-- R16: UNBIND leaves the channel DISABLED. -/
theorem test_unbind :
    ((after .unbind (operands 3 0 0 (three idleChannel))).channel 3).state = .disabled := by decide

/-- R17: START enters FETCHING, and the read of word 0 is granted on the event. -/
theorem test_start :
    let t := after .start (enabled (operands 3 4096 0 (three idleChannel)))
    (t.channel 3).state = .fetching ∧
      t.port.inFlight.map Transaction.address = some 4096 := by decide

/-- R17: an unaligned descriptor address is BAD-OPERAND. -/
theorem test_start_unaligned :
    (after .start (operands 3 4098 0 (three idleChannel))).command.lastResult = .badOperand := by
  decide

/-- R19: a RUNNING channel with nothing in flight is HALTED on the event of HALT, posting HALTED. -/
theorem test_halt :
    let t := after .halt (operands 3 0 0 (three (runningChannel (inbound 2) 1 1 [])))
    (t.channel 3).state = .halted ∧ t.queue.records.map EventRecord.kind = [.halted] := by decide

/-- R22: CONTINUE from HALTED in a fetch starts again at word 0. -/
theorem test_continue :
    let c := { fetchingChannel [1, 2] with state := .halted, resume := some .fetching }
    let t := after .continueChannel (operands 3 0 0 (three c))
    (t.channel 3).state = .fetching ∧ (t.channel 3).fetchProgress = 0 := by decide

/-- R24, R25: ABORT with nothing in flight posts ABORTED and leaves the channel IDLE. -/
theorem test_abort :
    let t := after .abort (operands 3 0 0 (three (runningChannel (inbound 5) 4 2 [7, 8])))
    (t.channel 3).state = .idle ∧
      t.queue.records.map (fun r => (r.kind, r.wordsDone)) = [(.aborted, 2)] := by decide

/-- R27: an unlogged record with the log RUNNING is FAULT-PENDING. -/
theorem test_clearFault_pending :
    (after .clearFault (operands 3 0 0 (logging (three faultedThree)))).command.lastResult =
      .faultPending := by decide

/-- R27: with the log OFF the record goes and the channel is IDLE. -/
theorem test_clearFault :
    let s := three faultedThree
    let t := after .clearFault (operands 3 0 0 { s with log := { s.log with faultOrder := [3] } })
    (t.channel 3).state = .idle ∧ t.log.faultOrder = [] := by decide

/-- R176: RESULT 0 of READ CHANNEL, state RUNNING (3), set 0, one word staged; RESULT 1, counts 2 and 1. -/
theorem test_readChannel :
    let t := after .readChannel (operands 3 0 0 (three (runningChannel (inbound 5) 2 1 [7])))
    t.command.result0 = 0x00000103 ∧ t.command.result1 = 0x00020001 := by decide

/-- R84, R85: LOAD MAP with nothing in flight clears the set and asks for word 0. -/
theorem test_loadMap :
    let t := after .loadMap (enabled (operands 0 20480 64 (mapped open5 State.reset)))
    ((t.mapSet 0).entry 1).valid = false ∧
      t.port.inFlight = some { purpose := .mapRead, address := 20480, delivery := .deliver } := by
  decide

/-- R90, R180: image 0xC0000009 is VALID, READ, frame 9. -/
theorem test_writeEntry :
    (((after .writeEntry (operands 0 1 0xC0000009 State.reset)).mapSet 0).entry 1) =
      { PageEntry.cleared with valid := true, read := true, frame := 9 } := by decide

/-- R93, R180: READ ENTRY shows the entry and the limit 64. -/
theorem test_readEntry :
    let t := after .readEntry (operands 0 1 0 (mapped open5 State.reset))
    t.command.result0 = 0xE0000005 ∧ t.command.result1 = 64 := by decide

/-- R94: PROBE of logical 4099 through frame 5 gives 5 × 4096 + 3. -/
theorem test_probe :
    let t := after .probe (operands 0 4099 1 (mapped open5 State.reset))
    t.command.result0 = 0 ∧ t.command.result1 = 20483 := by decide

/-- R94, R131: a probe beyond the limit gives PAGE-BEYOND (2). -/
theorem test_probe_beyond :
    let s := State.reset.putSet 0 { MapSet.reset with limit := 1 }
    (after .probe (operands 0 4096 2 s)).command.result0 = 2 := by decide

/-- R147: SET LOG starts the log empty, with sequence 1. -/
theorem test_setLog :
    let t := after .setLog (operands 8192 16 0 State.reset)
    t.log.state = .running ∧ t.log.base = 8192 ∧ t.log.nextSequence = 1 := by decide

/-- R148: LOG STOP with no record under way takes the log OFF. -/
theorem test_logStop : (after .logStop (logging State.reset)).log.state = .off := by decide

/-- R149: LOG CONSUMED of 2 in a FULL log frees both slots and returns it to RUNNING. -/
theorem test_logConsumed :
    let s := logging State.reset
    let t := after .logConsumed
      (operands 2 0 0 { s with log := { s.log with state := .full, unconsumed := 2 } })
    t.log.unconsumed = 0 ∧ t.log.state = .running := by decide

/-- R149: consuming more than U is UNDERRUN. -/
theorem test_logConsumed_underrun :
    (after .logConsumed (operands 1 0 0 (logging State.reset))).command.lastResult = .underrun := by
  decide

/-! ### The channel link -/

/-- R57: an OFFER in RUNNING is taken. -/
theorem test_offer :
    let t := after (.offer 3 42) (three (runningChannel (inbound 2) 0 0 []))
    (t.slot 3).answer = some .take ∧ (t.channel 3).staging = [42] := by decide

/-- The code table of R50: code 2 is END, and a GIVE shows code 1 with its word. -/
theorem test_link_codes :
    let l := (after (.ask 3) (three (runningChannel (outbound 3) 0 2 [7, 8]))).slot 3
    commandOfLines 3 2 0 = .endBlock 3 ∧ commandOfLines 3 0 42 = .offer 3 42 ∧
      l.answerCode = some 1 ∧ l.answerData = some 7 := by decide

/-- R64: an OFFER on an OUTBOUND descriptor is refused and faults the channel. -/
theorem test_offer_wrong_direction :
    let t := after (.offer 3 42) (three (runningChannel (outbound 2) 0 0 []))
    (t.slot 3).answer = some .refuse ∧ (t.channel 3).state = .faulted := by decide

/-- R63: an ASK is given the head word. -/
theorem test_ask :
    let t := after (.ask 3) (three (runningChannel (outbound 3) 0 2 [7, 8]))
    (t.slot 3).answer = some (.give 7) ∧ (t.channel 3).staging = [8] := by decide

/-- R66, R69: an END with nothing left to write completes the block: SHORT, then CHAIN-END, then IDLE. -/
theorem test_endBlock :
    let t := after (.endBlock 3) (three (runningChannel (inbound 5) 2 2 []))
    t.queue.records.map EventRecord.kind = [.short, .chainEnd] ∧ (t.channel 3).state = .idle := by
  decide

/-- R68: a FAIL is acknowledged and faults the channel with PERIPH-FAIL. -/
theorem test_fail :
    let t := after (.fail 3) (three (fetchingChannel [1]))
    (t.slot 3).answer = some .ack ∧
      (t.channel 3).fault.map HeldFault.kind = some .periphFail := by decide

/-- R50: answer valid falls with request valid. -/
theorem test_requestValidFall :
    let s := (three (fetchingChannel [])).putSlot 3
      { lines := some .ask, answerValid := true, answer := some (.give 7), early := none }
    ((after (.requestValidFall 3) s).slot 3).answerValid = false := by decide

/-- R52: a request that stood is met. -/
theorem test_waitingRequestMet :
    let s := (three { runningChannel (outbound 3) 0 1 [7] with request := some .ask }).putSlot 3
      { Slot.reset with lines := some .ask }
    ((after (.waitingRequestMet 3) s).slot 3).answer = some (.give 7) := by decide

/-! ### Completions and the memory port -/

set_option maxRecDepth 4000 in
/-- R36, R179: words 0x00024001, 0x1000, 0x2000, 0 spell an INBOUND block of 2 words with NOTIFY, linked to
0x2000. -/
theorem test_descReadComplete :
    let s := flying (.descRead 3) 4099 .deliver
      (three (fetchingChannel [0x00024001, 0x1000, 0x2000]))
    let t := after (.descReadComplete (.ok 0)) s
    (t.channel 3).state = .running ∧
      (t.channel 3).contents = some (.transfer { inbound 2 with link := some 0x2000 }) := by decide

set_option maxRecDepth 4000 in
/-- R37: a set unused bit of word 0 is DESC-FORMAT. -/
theorem test_descReadComplete_invalid :
    let s := flying (.descRead 3) 4099 .deliver
      (three (fetchingChannel [0x00024011, 0x1000, 0x2000]))
    ((after (.descReadComplete (.ok 0)) s).channel 3).fault.map HeldFault.kind =
      some .descFormat := by decide

/-- R59, R82: a completed write counts the word and sets MODIFIED. -/
theorem test_dataWriteComplete :
    let s := flying (.dataWrite 3 0 1 7) 20480 .deliver
      (mapped open5 (three (runningChannel (inbound 5) 2 0 [7, 8])))
    let t := after (.dataWriteComplete .ok) s
    (t.channel 3).memoryCount = 1 ∧ ((t.mapSet 0).entry 1).modified = true := by decide

/-- R62: a completed read stages its word. -/
theorem test_dataReadComplete :
    let s := flying (.dataRead 3 0 1) 20480 .deliver (three (runningChannel (outbound 5) 0 1 [7]))
    ((after (.dataReadComplete (.ok 8)) s).channel 3).staging = [7, 8] := by decide

/-- R87: the last image word completes the load with the new limit. -/
theorem test_mapReadComplete :
    let s := flying .mapRead 20481 .deliver (busy .loadMap 0 20480 2 State.reset)
    let l : Loader := { set := 0, source := 20480, newLimit := 2, phase := .reading, progress := 1 }
    let t := after (.mapReadComplete (.ok 0xE0000005))
      { s.putSet 0 { MapSet.reset with state := .loading } with loader := some l }
    (t.mapSet 0).limit = 2 ∧ t.command.lastResult = .ok ∧ t.loader = none := by decide

/-- R140: word 0 of a ring record advances W and U and makes the record logged. -/
theorem test_logWriteComplete :
    let s := flying (.logWrite 0) 8192 .deliver (logging (three faultedThree))
    let u : UnderWay := { target := .channel 3, slot := 0, written := 3 }
    let t := after (.logWriteComplete .ok)
      { s with log := { s.log with faultOrder := [3], underWay := some u } }
    t.log.writeIndex = 1 ∧ t.log.unconsumed = 1 ∧
      (t.channel 3).fault = some (.logged .busError) := by decide

/-- R104, R79: a data request to an invalid page faults its channel with PAGE-INVALID at the grant. -/
theorem test_grant :
    let t := after .grant (enabled (three (runningChannel (inbound 2) 1 0 [7])))
    (t.channel 3).fault.map HeldFault.kind = some .pageInvalid ∧ t.port.inFlight = none := by decide

/-- R81, R104: one to a valid page is issued at frame 5 and sets REFERENCED. -/
theorem test_grant_issues :
    let t := after .grant (enabled (mapped open5 (three (runningChannel (inbound 2) 1 0 [7]))))
    t.port.inFlight.map Transaction.address = some 20480 ∧
      ((t.mapSet 0).entry 1).referenced = true := by decide

/-! ### The interval timer and the rows inside an event -/

/-- R158: a tick raises the stall counter of a ready channel and the tick count. -/
theorem test_tick :
    let t := after .tick (three { runningChannel (inbound 2) 0 0 [] with stallLimit := 2 })
    (t.channel 3).stallCounter = 1 ∧ t.timer.tickCount = 1 := by decide

/-- R153: on an empty queue the 1000th microsecond is a tick. -/
theorem test_idle_step_ticks :
    (result (step { State.reset with timer := { Timer.reset with prescaler := 999 } })).timer =
      { period := 1000, prescaler := 0, tickCount := 1 } := by decide

/-- R159: a ready channel at its limit faults with STALL-TIMEOUT. -/
theorem test_stallTimeout :
    let c := { runningChannel (inbound 2) 0 0 [] with stallLimit := 2, stallCounter := 2 }
    ((after (.stallTimeout 3) (three c)).channel 3).fault.map HeldFault.kind =
      some .stallTimeout := by decide

set_option maxRecDepth 4000 in
/-- R41, R42: a channel that waited at step REPORT posts DONE and goes on. -/
theorem test_waitingPost :
    let c := { runningChannel (inbound 2) 2 2 [] with state := .settling .report }
    (after (.waitingPost 3) (three c)).queue.records.map EventRecord.kind = [.done, .chainEnd] := by
  decide

set_option maxRecDepth 4000 in
/-- R69: a block whose words are all written is complete. -/
theorem test_blockComplete :
    ((after (.blockComplete 3) (three (runningChannel (inbound 2) 2 2 []))).channel 3).state =
      .idle := by decide

/-- R19: HALT completes with OK as the channel leaves HALTING. -/
theorem test_leaveHalting :
    let c := { fetchingChannel [] with state := .halting, resume := some .fetching }
    let t := after (.leaveHalting 3) (busy .halt 3 0 0 (three c))
    (t.channel 3).state = .halted ∧ t.command.inProgress = none := by decide

/-- R25: ABORT completes with OK as the channel leaves ABORTING. -/
theorem test_leaveAborting :
    let c := { idleChannel with state := .aborting, abortWordsDone := some 4 }
    let t := after (.leaveAborting 3) (busy .abort 3 0 0 (three c))
    t.queue.records.map EventRecord.wordsDone = [4] ∧ t.command.inProgress = none := by decide

/-- R85: a drained load enters READING. -/
theorem test_drainEnd :
    let l : Loader := { set := 0, source := 20480, newLimit := 2, phase := .draining, progress := 0 }
    (after .drainEnd { mapped open5 State.reset with loader := some l }).loader =
      some { l with phase := .reading } := by decide

/-- R91: a waiting WRITE ENTRY replaces its entry and completes. -/
theorem test_writeEntryReplace :
    let t := after .writeEntryReplace (busy .writeEntry 0 1 0x80000002 State.reset)
    ((t.mapSet 0).entry 1).frame = 2 ∧ t.command.inProgress = none := by decide

/-- R137: a record for the head of the fault order list begins in slot W. -/
theorem test_logRecordBegin :
    let s := logging (three faultedThree)
    let t := after .logRecordBegin { s with log := { s.log with faultOrder := [3], writeIndex := 1 } }
    t.log.underWay = some { target := .channel 3, slot := 1, written := 0 } := by decide

/-- R144: a full ring begins the overflow record in the reserve slot, with the number that wait. -/
theorem test_overflowRecordBegin :
    let s := logging (three faultedThree)
    let t := after .overflowRecordBegin
      { s with log := { s.log with faultOrder := [3], unconsumed := 2 } }
    t.log.underWay.map UnderWay.slot = some 2 ∧
      t.log.underWay.map UnderWay.target = some (.overflow
        { channel := 3, descAddr := 4096, logical := 4097, waiting := 1, stamp := 0 }) := by decide

/-- R148: a waiting LOG STOP completes with BUS-ERROR where the record was abandoned. -/
theorem test_logStopComplete :
    let s := logging (busy .logStop 0 0 0 State.reset)
    let t := after .logStopComplete { s with log := { s.log with state := .error } }
    t.log.state = .off ∧ t.command.lastResult = .busError := by decide

/-! ### Witnesses: resets, the window, the queue and the command port -/

theorem witness_SoftResetValues :
    ((three (fetchingChannel [])).channel 3).request = none ∧
      ((three { fetchingChannel [] with request := some .endBlock }).channel 3).request ≠ none ∧
      (State.reset.mapSet 7).state = .ready ∧
      ((State.reset.putSet 7 { MapSet.reset with state := .loading }).mapSet 7).state = .loading := by
  decide

theorem witness_WindowWrites :
    (0x80000000 : Word).getLsbD 31 = true ∧ (0x7FFFFFFF : Word).getLsbD 31 = false ∧
      hostCommandCode .logConsumed = (0x22 : Word).setWidth 8 ∧
      (0 : BitVec 5) ∉ [1, 2, 4, 5, 6, 7, 15, 19] ∧ (31 : BitVec 5) ∉ [1, 2, 4, 5, 6, 7, 15, 19] := by
  decide

theorem witness_WindowWrites_unknown : ∀ cmd, hostCommandCode cmd ≠ (0x23 : Word).setWidth 8 := by
  intro cmd; cases cmd <;> decide

theorem witness_ControlWrites : (0x7FFFFFFF : Word).getLsbD 31 = false := by decide

theorem witness_WindowReads :
    State.reset.queue.records = [] ∧ (queued 1 State.reset).queue.records = [someEvent] ∧
      (7 : ChannelNo).val < 8 ∧ 8 ≤ (8 : ChannelNo).val ∧ 23 ≤ (23 : BitVec 5).toNat := by decide

/-- The head age at the delay, and one below it. -/
theorem witness_InterruptCauses :
    let q : EventQueue := { EventQueue.reset with records := [someEvent], delay := 7, headAge := 7 }
    (q.delay ≠ 0 ∧ q.records ≠ [] ∧ q.delay ≤ q.headAge) ∧
      ({ q with headAge := 6 }).headAge < q.delay := by decide

theorem witness_PopOfEmptyQueue :
    State.reset.queue.records = [] ∧ State.reset.queue.waitList = [] := by decide

theorem witness_PopRemovesHead :
    let s := queued 24 (three { idleChannel with pendingEvent := some someEvent })
    let w := { s with queue := { s.queue with waitList := [3] } }
    (queued 1 State.reset).queue.records = [someEvent] ∧
      (queued 1 State.reset).queue.waitList = [] ∧ w.queue.waitList = 3 :: [] ∧
      (w.channel 3).pendingEvent = some someEvent := by decide

theorem witness_BusyPortDiscards :
    (busy .halt 3 0 0 State.reset).command.inProgress ≠ none ∧
      ({ CommandPort.reset with refused := true }).refused = true ∧
      exec .tick (busy .halt 3 0 0 State.reset) =
        .next (result (exec .tick (busy .halt 3 0 0 State.reset))) :=
  ⟨by decide, rfl, rfl⟩

theorem witness_RefusedCommands_unknown :
    PortIdle State.reset ∧ ∀ cmd, hostCommandCode cmd ≠ (0x09 : Word).setWidth 8 :=
  ⟨rfl, fun cmd => by cases cmd <;> decide⟩

/-- Channel 16 is the first that is none. -/
theorem witness_RefusedCommands_operand :
    PortIdle (operands 16 0 0 State.reset) ∧ ¬ LegalOperands .halt (operands 16 0 0 State.reset) :=
  ⟨rfl, by unfold LegalOperands; decide⟩

/-- Channel 15 legal, in a state that HALT is not taken in; a log command on a log in the wrong state. -/
theorem witness_RefusedCommands_state :
    LegalOperands .halt (operands 15 0 0 State.reset) ∧
      CheckFails .halt (State.reset.channel 15) (operands 15 0 0 State.reset) .badState ∧
      LegalOperands .logStop State.reset ∧
      CheckFails .logStop (State.reset.channel 0) State.reset .badState :=
  ⟨by unfold LegalOperands; decide, by unfold CheckFails; decide, trivial,
    by unfold CheckFails; decide⟩

/-! ### Witnesses: the channel commands -/

theorem witness_BindAndUnbind :
    let s := operands 15 7 255 State.reset
    PortIdle s ∧ s.command.operandA.toNat = (15 : ChannelNo).val ∧ (s.channel 15).state = .disabled ∧
      s.command.operandB.toNat = (7 : SetNo).val ∧ s.command.operandC.toNat ≤ 255 ∧
      ((three idleChannel).channel 3).state = .idle ∧
      ((three idleChannel).channel 3).pendingEvent = none ∧
      ((three idleChannel).channel 3).request = none :=
  ⟨rfl, by decide⟩

/-- The last multiple of 4 of the physical space. -/
theorem witness_StartFetches :
    let s := operands 3 0xFFFFFC 0 (three idleChannel)
    NothingDue s ∧ PortIdle s ∧ s.command.operandA.toNat = (3 : ChannelNo).val ∧
      s.command.operandB.toNat < 2 ^ 24 ∧ s.command.operandB.toNat % 4 = 0 ∧
      (s.channel 3).state = .idle :=
  ⟨nothingDue_of_check _ (by decide), rfl, by decide⟩

theorem witness_HaltTaken_waits :
    let s := flying (.descRead 3) 4096 .deliver (operands 3 0 0 (three (fetchingChannel [])))
    NothingDue s ∧ PortIdle s ∧ s.command.operandA.toNat = (3 : ChannelNo).val ∧
      (s.channel 3).state = .fetching ∧ s.channelInFlight 3 = true :=
  ⟨nothingDue_of_check _ (by decide), rfl, by decide⟩

/-- Log entry 21: a restarted channel with the write of its old chain still in flight. -/
theorem witness_HaltTaken_restarted :
    let s := flying (.dataWrite 3 0 1 7) 20480 .discard (operands 3 0 0 (three (fetchingChannel [])))
    NothingDue s ∧ PortIdle s ∧ s.command.operandA.toNat = (3 : ChannelNo).val ∧
      (s.channel 3).state = .fetching ∧ s.channelInFlight 3 = true :=
  ⟨nothingDue_of_check _ (by decide), rfl, by decide⟩

theorem witness_HaltTaken_ends :
    let s := operands 3 0 0 (three (runningChannel (inbound 2) 1 1 []))
    NothingDue s ∧ PortIdle s ∧ s.command.operandA.toNat = (3 : ChannelNo).val ∧
      (s.channel 3).state = .running ∧ s.channelInFlight 3 = false ∧
      (s.channel 3).pendingEvent = none :=
  ⟨nothingDue_of_check _ (by decide), rfl, by decide⟩

theorem witness_ContinueTaken_halted :
    let c := { runningChannel (inbound 2) 1 1 [] with state := .halted, resume := some .running }
    let s := operands 3 0 0 (three c)
    NothingDue s ∧ PortIdle s ∧ s.command.operandA.toNat = (3 : ChannelNo).val ∧
      (s.channel 3).state = .halted ∧ (s.channel 3).resume = some .running :=
  ⟨nothingDue_of_check _ (by decide), rfl, by decide⟩

theorem witness_ContinueTaken_fetching :
    let s := operands 3 0 0 (three (fetchingChannel [1, 2]))
    NothingDue s ∧ PortIdle s ∧ s.command.operandA.toNat = (3 : ChannelNo).val ∧
      (s.channel 3).state = .fetching :=
  ⟨nothingDue_of_check _ (by decide), rfl, by decide⟩

theorem witness_ContinueTaken_holding :
    let s := operands 3 0 0 (three { runningChannel (inbound 2) 2 2 [] with state := .holding })
    NothingDue s ∧ PortIdle s ∧ s.command.operandA.toNat = (3 : ChannelNo).val ∧
      (s.channel 3).state = .holding ∧ (s.channel 3).contents = some (.transfer (inbound 2)) :=
  ⟨nothingDue_of_check _ (by decide), rfl, by decide⟩

theorem witness_AbortTaken :
    let s := operands 3 0 0 (three (runningChannel (inbound 5) 2 1 [7]))
    let f := flying (.dataWrite 3 0 1 7) 20480 .deliver s
    NothingDue s ∧ NothingDue f ∧ PortIdle s ∧ PortIdle f ∧
      s.command.operandA.toNat = (3 : ChannelNo).val ∧ (s.channel 3).state = .running ∧
      s.channelInFlight 3 = false ∧ f.channelInFlight 3 = true :=
  ⟨nothingDue_of_check _ (by decide), nothingDue_of_check _ (by decide), rfl, rfl, by decide⟩

theorem witness_ClearFaultTaken :
    let s := operands 3 0 0 (three faultedThree)
    let l := operands 3 0 0
      (logging (three { faultedThree with fault := some (.logged .busError) }))
    PortIdle s ∧ PortIdle l ∧ s.command.operandA.toNat = (3 : ChannelNo).val ∧
      (s.channel 3).state = .faulted ∧ s.log.state = .off ∧ (l.channel 3).state = .faulted ∧
      isUnlogged (l.channel 3).fault = false :=
  ⟨rfl, rfl, by decide⟩

/-- The last channel, page and logical address, and both outcomes of a probe. -/
theorem witness_ReportingCommands :
    let s := operands 7 63 0 State.reset
    let b := operands 0 262143 2 State.reset
    let p := operands 0 4099 1 (mapped open5 State.reset)
    PortIdle s ∧ s.command.operandA.toNat = (7 : SetNo).val ∧
      s.command.operandB.toNat = (63 : PageNo).val ∧ b.command.operandB.toNat ≤ 262143 ∧
      translateAccess (b.mapSet 0) (b.command.operandB.setWidth 19) .write = .fails .pageInvalid ∧
      translateAccess (p.mapSet 0) (p.command.operandB.setWidth 19) .read = .passes 1 20483 :=
  ⟨rfl, by decide⟩

/-! ### Witnesses: the map and log commands -/

/-- The last image of 64 words that fits, and the shortest one, with and without a transaction to drain. -/
theorem witness_LoadMapTaken :
    let s := operands 0 0xFFFFC0 64 State.reset
    let f := flying (.dataRead 3 7 1) 20480 .deliver (operands 7 0xFFFFFF 1 State.reset)
    PortIdle s ∧ PortIdle f ∧ s.command.operandB.toNat + s.command.operandC.toNat ≤ 2 ^ 24 ∧
      f.command.operandB.toNat + f.command.operandC.toNat ≤ 2 ^ 24 ∧
      f.port.inFlight.map (fun t => t.purpose.through) = some (some (7, 1)) ∧
      s.port.inFlight = none :=
  ⟨rfl, rfl, by decide⟩

theorem witness_WriteEntryTaken :
    let s := operands 0 63 0xE0000005 State.reset
    let f := flying (.dataRead 3 0 63) 20480 .deliver s
    PortIdle s ∧ s.command.operandB.toNat = (63 : PageNo).val ∧
      (63 : PageNo).val < (s.mapSet 0).limit.toNat ∧
      f.port.inFlight.map (fun t => t.purpose.through) = some (some (0, 63)) ∧
      s.port.inFlight = none :=
  ⟨rfl, by decide⟩

/-- The largest log at the end of the space, and a consumption of all of U. -/
theorem witness_LogCommandsTaken :
    LegalOperands .setLog (operands 0xFFEFFC 1024 0 State.reset) ∧ State.reset.log.state = .off ∧
      (logging State.reset).log.state ≠ .off ∧ (logging State.reset).log.underWay = none ∧
      LegalOperands .logConsumed (operands 1024 0 0 State.reset) ∧
      (1024 : Word).toNat ≤ (1024 : BitVec 11).toNat :=
  ⟨by unfold LegalOperands; decide, by decide, by decide, by decide,
    by unfold LegalOperands; decide, by decide⟩

/-! ### Witnesses: the interval timer -/

theorem witness_TickAndStallTimeout :
    let c := { runningChannel (inbound 2) 0 0 [] with stallLimit := 255, stallCounter := 255 }
    State.reset.pending = [] ∧ 998 + 1 < State.reset.timer.period.toNat ∧
      State.reset.timer.period.toNat ≤ 999 + 1 ∧ c.stallLimit ≠ 0 ∧
      readyForPeripheral c = true ∧ c.stallCounter = c.stallLimit := by decide

theorem witness_TimerPeriodWrites :
    (0xFFFF0001 : Word).extractLsb' 0 16 ≠ 0 ∧ (0xFFFF0000 : Word).extractLsb' 0 16 = 0 ∧
      exec .tick State.reset = .next (result (exec .tick State.reset)) :=
  ⟨by decide, by decide, rfl⟩

/-! ### Witnesses: the channel link -/

theorem witness_RequestsTurnedAway :
    let a := flying (.descRead 3) 4096 .discard (three { idleChannel with state := .aborting })
    NothingDue State.reset ∧ FreeSlot State.reset 15 ∧ (State.reset.channel 15).state = .disabled ∧
      NothingDue (three idleChannel) ∧ FreeSlot (three idleChannel) 3 ∧
      NothingDue (three faultedThree) ∧ FreeSlot (three faultedThree) 3 ∧
      NothingDue a ∧ FreeSlot a 3 ∧ (a.channel 3).state = .aborting :=
  ⟨nothingDue_of_check _ (by decide), ⟨rfl, rfl⟩, by decide,
    nothingDue_of_check _ (by decide), ⟨rfl, rfl⟩, nothingDue_of_check _ (by decide), ⟨rfl, rfl⟩,
    nothingDue_of_check _ (by decide), ⟨rfl, rfl⟩, by decide⟩

/-- A full staging queue, an empty one, and a fetch. -/
theorem witness_RequestsWait :
    let i := three (runningChannel (inbound 5) 4 0 [1, 2, 3, 4])
    let o := three (runningChannel (outbound 5) 0 0 [])
    let f := three (fetchingChannel [])
    NothingDue i ∧ FreeSlot i 3 ∧ Waits (i.channel 3) (.offer 9) ∧
      NothingDue o ∧ FreeSlot o 3 ∧ Waits (o.channel 3) .ask ∧
      NothingDue f ∧ FreeSlot f 3 ∧ Waits (f.channel 3) .endBlock :=
  ⟨nothingDue_of_check _ (by decide), ⟨rfl, rfl⟩, ⟨by decide, Or.inr (Or.inr (by decide))⟩,
    nothingDue_of_check _ (by decide), ⟨rfl, rfl⟩, ⟨by decide, rfl⟩,
    nothingDue_of_check _ (by decide), ⟨rfl, rfl⟩, ⟨by decide, trivial⟩⟩

/-- The last word but one of a block staged to three, and the last word of one. -/
theorem witness_WordsExchanged :
    let i := three (runningChannel (inbound 5) 4 1 [1, 2, 3])
    let o := three (runningChannel (outbound 5) 3 5 [1, 2])
    let e := three (runningChannel (outbound 5) 4 5 [2])
    NothingDue i ∧ AccountInv i ∧ FreeSlot i 3 ∧ (i.channel 3).exchanged < (inbound 5).count ∧
      NothingDue o ∧ AccountInv o ∧ FreeSlot o 3 ∧ (o.channel 3).exchanged + 1 ≠ (outbound 5).count ∧
      NothingDue e ∧ AccountInv e ∧ FreeSlot e 3 ∧ (e.channel 3).exchanged + 1 = (outbound 5).count :=
  ⟨nothingDue_of_check _ (by decide), accountInv_of_check _ (by decide), ⟨rfl, rfl⟩, by decide,
    nothingDue_of_check _ (by decide), accountInv_of_check _ (by decide), ⟨rfl, rfl⟩, by decide,
    nothingDue_of_check _ (by decide), accountInv_of_check _ (by decide), ⟨rfl, rfl⟩, by decide⟩

theorem witness_WrongDirectionFaults :
    let i := three (runningChannel (inbound 5) 0 0 [])
    let o := three (runningChannel (outbound 5) 0 0 [])
    NothingDue i ∧ FreeSlot i 3 ∧ (i.channel 3).contents = some (.transfer (inbound 5)) ∧
      NothingDue o ∧ FreeSlot o 3 ∧ (o.channel 3).contents = some (.transfer (outbound 5)) :=
  ⟨nothingDue_of_check _ (by decide), ⟨rfl, rfl⟩, rfl,
    nothingDue_of_check _ (by decide), ⟨rfl, rfl⟩, rfl⟩

/-- An END after the last word, before it with a word staged and with none, and on both OUTBOUND cases. -/
theorem witness_EndMetInRunning :
    let d := three (runningChannel (inbound 2) 2 1 [5])
    let i := three (runningChannel (inbound 2) 1 0 [5])
    let n := three (runningChannel (inbound 2) 1 1 [])
    let o := three (runningChannel (outbound 2) 0 1 [5])
    let f := flying (.dataRead 3 0 1) 20480 .deliver o
    (NothingDue d ∧ AccountInv d ∧ FreeSlot d 3 ∧ (inbound 2).count ≤ (d.channel 3).exchanged) ∧
      (NothingDue i ∧ AccountInv i ∧ FreeSlot i 3 ∧ (i.channel 3).exchanged < (inbound 2).count) ∧
      (NothingDue n ∧ AccountInv n ∧ FreeSlot n 3 ∧ n.channelInFlight 3 = false) ∧
      (NothingDue o ∧ AccountInv o ∧ FreeSlot o 3 ∧ o.channelInFlight 3 = false) ∧
      NothingDue f ∧ AccountInv f ∧ FreeSlot f 3 ∧ f.channelInFlight 3 = true :=
  ⟨⟨nothingDue_of_check _ (by decide), accountInv_of_check _ (by decide), ⟨rfl, rfl⟩, by decide⟩,
    ⟨nothingDue_of_check _ (by decide), accountInv_of_check _ (by decide), ⟨rfl, rfl⟩, by decide⟩,
    ⟨nothingDue_of_check _ (by decide), accountInv_of_check _ (by decide), ⟨rfl, rfl⟩, by decide⟩,
    ⟨nothingDue_of_check _ (by decide), accountInv_of_check _ (by decide), ⟨rfl, rfl⟩, by decide⟩,
    nothingDue_of_check _ (by decide), accountInv_of_check _ (by decide), ⟨rfl, rfl⟩, by decide⟩

theorem witness_FailFaults :
    let s := three { fetchingChannel [] with request := some .endBlock }
    NothingDue s ∧ (s.slot 3).answerValid = false ∧ (s.channel 3).state = .fetching :=
  ⟨nothingDue_of_check _ (by decide), by decide⟩

theorem witness_SlotConversation :
    let s := three { fetchingChannel [] with request := some .ask }
    let up : Slot := { lines := some .ask, answerValid := true, answer := some .refuse, early := none }
    (s.slot 3).answerValid = false ∧ (s.channel 3).request ≠ none ∧ LinkRequest.ask ≠ .fail ∧
      up.answerValid = true ∧ up.early = none ∧ up.answer = some .refuse ∧
      ({ up with early := some .endBlock }).early = some .endBlock ∧
      ((three (fetchingChannel [])).channel 3).request = none := by decide

theorem witness_WaitingRequestAnswered :
    let q := three (runningChannel (inbound 5) 1 0 [1])
    let i := three { runningChannel (inbound 5) 4 1 [1, 2, 3] with request := some (.offer 9) }
    let o := three { runningChannel (outbound 5) 3 4 [7] with request := some .ask }
    (completedBlock q 3 = none ∧ (q.channel 3).request = none) ∧
      (completedBlock i 3 = none ∧ (i.channel 3).exchanged < (inbound 5).count ∧
        (i.channel 3).staging.length < 4) ∧
      completedBlock o 3 = none ∧ (o.channel 3).exchanged + 1 ≠ (outbound 5).count := by decide

/-- The last word of a block, with nothing in flight and beside an abandoned read. -/
theorem witness_WaitingRequestAnswered_last :
    let o := three { runningChannel (outbound 5) 4 5 [7] with request := some .ask }
    (o.channel 3).exchanged + 1 = (outbound 5).count ∧ completedBlock o 3 = none ∧
      o.channelInFlight 3 = false ∧
      (flying (.dataRead 3 0 1) 20480 .discard o).channelInFlight 3 = true := by decide

/-- An OFFER and an ASK of the wrong direction, and an END at the count, below it with a word staged, and below it
with nothing left to move. -/
theorem witness_WaitingRequestAnswered_running :
    let w := three { runningChannel (outbound 5) 0 0 [] with request := some (.offer 9) }
    let a := three { runningChannel (inbound 5) 0 0 [] with request := some .ask }
    let f := three { runningChannel (inbound 2) 2 1 [7] with request := some .endBlock }
    let i := three { runningChannel (inbound 5) 1 0 [7] with request := some .endBlock }
    let e := three { runningChannel (inbound 5) 1 1 [] with request := some .endBlock }
    let o := three { runningChannel (outbound 5) 0 0 [] with request := some .endBlock }
    (completedBlock w 3 = none ∧ completedBlock a 3 = none) ∧
      (completedBlock f 3 = none ∧ (inbound 2).count ≤ (f.channel 3).exchanged) ∧
      (completedBlock i 3 = none ∧ (i.channel 3).exchanged < (inbound 5).count ∧
        (i.channel 3).staging ≠ []) ∧
      (completedBlock e 3 = none ∧ e.channelInFlight 3 = false ∧ (e.channel 3).staging = []) ∧
      completedBlock o 3 = none ∧ o.channelInFlight 3 = false := by decide

/-- A request standing in IDLE, a FAIL standing in FETCHING, and an ASK that waits there. -/
theorem witness_WaitingRequestAnswered_other :
    let i := three { idleChannel with request := some .ask }
    let f := three { fetchingChannel [] with request := some .fail }
    let w := three { fetchingChannel [] with request := some .ask }
    (resumedStep i 3 = none ∧ leaveHaltingDue i 3 = false ∧ leaveAbortingDue i 3 = false ∧
        completedBlock i 3 = none ∧ (i.channel 3).state = .idle) ∧
      (resumedStep f 3 = none ∧ leaveHaltingDue f 3 = false ∧ leaveAbortingDue f 3 = false ∧
        completedBlock f 3 = none ∧ (f.channel 3).state = .fetching) ∧
      completedBlock w 3 = none ∧ Waits (w.channel 3) .ask :=
  ⟨by decide, by decide, by decide, by decide, trivial⟩

/-! ### Witnesses: completions -/

theorem witness_DescriptorWordKept :
    let f := flying (.descRead 3) 4098 .deliver (three (fetchingChannel [1, 2]))
    let c := { fetchingChannel [1, 2] with state := .halting, resume := some .fetching }
    let h := flying (.descRead 3) 4098 .deliver (three c)
    let p := flying (.descRead 3) 4098 .deliver (three { c with pendingEvent := some someEvent })
    NothingDue f ∧ (f.channel 3).fetchProgress < 3 ∧ NothingDue h ∧ (h.channel 3).pendingEvent = none ∧
      NothingDue p ∧ (p.channel 3).pendingEvent ≠ none :=
  ⟨nothingDue_of_check _ (by decide), by decide, nothingDue_of_check _ (by decide), by decide,
    nothingDue_of_check _ (by decide), by decide⟩

theorem witness_DescriptorAccepted :
    let s := flying (.descRead 3) 4099 .deliver
      (three (fetchingChannel [0x00024001, 0x1000, 0x2000]))
    NothingDue s ∧ (s.channel 3).state = .fetching ∧ (s.channel 3).fetchProgress = 3 :=
  ⟨nothingDue_of_check _ (by decide), by decide⟩

set_option maxRecDepth 4000 in
/-- A transfer descriptor, a link-only one with an aligned and with an unaligned link, and an invalid one. -/
theorem witness_DescriptorAccepted_words :
    validateDescriptor [0x00024001, 0x1000, 0x2000, 0] =
        some (.transfer { inbound 2 with link := some 0x2000 }) ∧
      validateDescriptor [0, 0, 0xFFFFFC, 0] = some (.linkOnly 0xFFFFFC) ∧
      validateDescriptor [0, 0, 0xFFFFFF, 0] = some (.linkOnly 0xFFFFFF) ∧
      validateDescriptor [0, 0, 0x1000000, 0] = none := by decide

/-- The last run length that is followed, and the one that faults. -/
theorem witness_DescriptorAccepted_run : (11 : BitVec 4) < 12 ∧ (12 : BitVec 4) = 12 := by decide

theorem witness_DataTransactionCompletes :
    let w := flying (.dataWrite 3 0 63 7) 20480 .deliver
      (three (runningChannel (inbound 5) 1 0 [7]))
    let r := flying (.dataRead 3 0 63) 20480 .deliver (three (runningChannel (outbound 5) 0 0 []))
    (w.channel 3).state = .running ∧ w.port.inFlight =
        some { purpose := .dataWrite 3 0 63 7, address := 20480, delivery := .deliver } ∧
      (r.channel 3).state = .running ∧ r.port.inFlight =
        some { purpose := .dataRead 3 0 63, address := 20480, delivery := .deliver } := by decide

theorem witness_DroppedCompletions :
    (flying (.dataWrite 3 0 63 7) 20480 .discard State.reset).port.inFlight =
        some { purpose := .dataWrite 3 0 63 7, address := 20480, delivery := .discard } ∧
      (flying (.dataRead 3 0 63) 20480 .discard State.reset).port.inFlight =
        some { purpose := .dataRead 3 0 63, address := 20480, delivery := .discard } ∧
      (flying (.descRead 3) 4096 .orphan State.reset).port.inFlight =
        some { purpose := .descRead 3, address := 4096, delivery := .orphan } ∧
      (flying .mapRead 4096 .orphan State.reset).port.inFlight =
        some { purpose := .mapRead, address := 4096, delivery := .orphan } ∧
      (flying (.logWrite 7) 4096 .orphan State.reset).port.inFlight =
        some { purpose := .logWrite 7, address := 4096, delivery := .orphan } ∧
      State.reset.port.inFlight = none := by decide

/-- A transaction of another kind than the one that completes, and a map read and a log write whose owners are
gone. -/
theorem witness_DroppedCompletions_other :
    let s := flying .mapRead 4096 .deliver State.reset
    let l := flying (.logWrite 7) 4096 .deliver State.reset
    (∀ t, s.port.inFlight = some t → ∀ k, t.purpose ≠ .descRead k) ∧
      (∀ t, l.port.inFlight = some t → t.purpose ≠ .mapRead) ∧ s.loader = none ∧ l.log.underWay = none := by
  refine ⟨?_, ?_, rfl, rfl⟩
  · rintro t h k e
    cases h
    cases e
  · rintro t h e
    cases h
    cases e

/-- The last word of an image of 64, and the one before it. -/
theorem witness_MapReadCompletes :
    let l : Loader := { set := 0, source := 20480, newLimit := 64, phase := .reading, progress := 63 }
    l.progress.toNat = (63 : PageNo).val ∧ l.progress + 1 = l.newLimit ∧
      ({ l with progress := 62 }).progress + 1 ≠ l.newLimit ∧
      (flying .mapRead 20543 .deliver State.reset).port.inFlight =
        some { purpose := .mapRead, address := 20543, delivery := .deliver } := by decide

theorem witness_LogWriteCompletes :
    let u : UnderWay := { target := .channel 3, slot := 0, written := 3 }
    let s := flying (.logWrite 7) 8192 .deliver (logging (three faultedThree))
    u.written = 3 ∧ ({ u with written := 2 }).written ≠ 3 ∧ s.log.capacity ≠ 0 ∧
      (s.channel 3).fault = some (.unlogged someFault) ∧ s.log.unconsumed ≠ s.log.capacity ∧
      ({ s.log with unconsumed := 2 }).unconsumed = s.log.capacity ∧ s.port.inFlight =
        some { purpose := .logWrite 7, address := 8192, delivery := .deliver } := by decide

/-! ### Witnesses: the memory port -/

theorem witness_GrantByClass :
    let l : Loader := { set := 0, source := 20480, newLimit := 2, phase := .reading, progress := 1 }
    let s := enabled (logging (three faultedThree))
    let u : UnderWay := { target := .channel 3, slot := 0, written := 3 }
    let f := enabled (three (fetchingChannel [1, 2, 3]))
    canGrant s = true ∧ mapRequest { s with loader := some l } = some 20481 ∧ mapRequest s = none ∧
      ({ s.log with underWay := some u }).underWay = some u ∧
      (s.channel 3).fault = some (.unlogged someFault) ∧ canGrant f = true ∧ mapRequest f = none ∧
      f.log.underWay = none ∧ (f.channel 3).fetchProgress < 4 := by decide

theorem witness_GrantByClass_idle :
    let s := enabled State.reset
    canGrant s = true ∧ mapRequest s = none ∧ logRequest s = none ∧ eligibleChannels s = [] := by decide

/-- A channel with no other eligible request before it, at the end of its streak. -/
theorem witness_GrantByClass_chosen :
    let f := enabled (three (fetchingChannel [1, 2, 3]))
    let s := { f with port := { f.port with streakOwner := some 3, streakLength := 8 } }
    Chosen s 3 ∧ yielding s 3 = true :=
  ⟨⟨by decide, by decide⟩, by decide⟩

theorem witness_DataGrantTranslated :
    let w := enabled (mapped open5 (three (runningChannel (inbound 5) 1 0 [7])))
    let r := enabled (three (runningChannel (outbound 5) 0 0 []))
    canGrant w = true ∧ mapRequest w = none ∧ Chosen w 3 ∧ (w.mapSet 0).state = .ready ∧
      translateAccess (w.mapSet 0) 4096 .write = .passes 1 20480 ∧ canGrant r = true ∧ Chosen r 3 ∧
      (r.channel 3).memoryCount < (outbound 5).count ∧
      translateAccess (r.mapSet 0) 4096 .read = .fails .pageInvalid :=
  ⟨by decide, by decide, ⟨by decide, by decide⟩, by decide, by decide, by decide,
    ⟨by decide, by decide⟩, by decide, by decide⟩

/-- The first page beyond a limit of 1, the first of all beyond every set, and each right clear. -/
theorem witness_TranslationChecks :
    let x : MapSet := { MapSet.reset with limit := 1 }
    x.limit.toNat ≤ (4096 : LogAddr).toNat / 4096 ∧ MapSet.reset.limit.toNat ≤ 64 ∧
      MapSet.reset.limit.toNat ≤ (262144 : LogAddr).toNat / 4096 ∧
      (4095 : LogAddr).toNat / 4096 = (0 : PageNo).val ∧ (0 : PageNo).val < x.limit.toNat ∧
      (x.entry 0).valid = false ∧ open5.valid = true ∧ open5.read = true ∧ open5.write = true ∧
      ({ open5 with read := false }).read = false ∧ ({ open5 with write := false }).write = false := by
  decide

theorem witness_DescriptorChecks :
    (0x0000FFFF : Word).toNat / 65536 = 0 ∧ (0x00010000 : Word).toNat / 65536 ≠ 0 := by decide

/-! ### Witnesses: the transitions inside an event -/

/-- Complete by count, short with nothing staged, OUTBOUND by count; and not complete in each way. -/
theorem witness_BlockCompletes :
    let i := three (runningChannel (inbound 2) 2 2 [])
    let e := three { runningChannel (inbound 2) 1 1 [] with short := true }
    let o := three (runningChannel (outbound 2) 2 2 [])
    let n := three { runningChannel (inbound 2) 1 0 [5] with short := true }
    (i.channel 3).memoryCount = (inbound 2).count ∧ i.channelInFlight 3 = false ∧
      ((e.channel 3).short = true ∧ (e.channel 3).staging = []) ∧
      (o.channel 3).exchanged = (outbound 2).count ∧
      (n.channel 3).memoryCount ≠ (inbound 2).count ∧ (n.channel 3).staging ≠ [] ∧
      (flying (.dataRead 3 0 1) 4096 .discard o).channelInFlight 3 = true ∧
      ((three idleChannel).channel 3).state ≠ .running := by decide

/-- WAITING POST in a channel that is not in SETTLING, HALTING with its transaction in flight. -/
theorem witness_HaltingAndAbortingLeft_idle :
    let c := { fetchingChannel [] with state := .halting, resume := some .fetching }
    let s := flying (.descRead 3) 4096 .deliver (three c)
    (s.channel 3).state = .halting ∧ s.channelInFlight 3 = true ∧
      ∀ step, (s.channel 3).state ≠ .settling step := by
  refine ⟨by decide, by decide, ?_⟩
  rintro step ⟨⟩

theorem witness_HaltingAndAbortingLeft :
    let f := busy .halt 3 0 0
      (three { fetchingChannel [1] with state := .halting, resume := some .fetching })
    let r := busy .halt 3 0 0
      (three { runningChannel (inbound 5) 2 1 [7] with state := .halting, resume := some .running })
    let a := busy .abort 3 0 0 (three { idleChannel with state := .aborting, abortWordsDone := some 4 })
    let w := three { runningChannel (inbound 2) 2 2 [] with state := .settling .select }
    (leaveHaltingDue f 3 = true ∧ commandOn f .halt 3 = true ∧
        (f.channel 3).resume = some .fetching) ∧
      (leaveHaltingDue r 3 = true ∧ commandOn r .halt 3 = true ∧
        (r.channel 3).contents = some (.transfer (inbound 5))) ∧
      (leaveAbortingDue a 3 = true ∧ commandOn a .abort 3 = true ∧ (a.channel 3).request = none ∧
        (a.channel 3).abortWordsDone = some 4) ∧
      (w.channel 3).state = .settling .select ∧ (w.channel 3).pendingEvent = none := by decide

theorem witness_DrainAndRewriteEnd :
    let l : Loader := { set := 0, source := 20480, newLimit := 2, phase := .draining, progress := 0 }
    let s := { State.reset with loader := some l }
    let d := flying (.dataRead 3 0 63) 20480 .deliver s
    let w := busy .writeEntry 0 63 0 State.reset
    (s.loader = some l ∧ s.setInUse 0 = false) ∧ d.setInUse 0 = true ∧ w.entryInUse 0 63 = false ∧
      (flying (.dataRead 3 0 63) 20480 .deliver w).entryInUse 0 63 = true := by decide

/-- U one below C, and at C. -/
theorem witness_LogRecordsBegin :
    let s := logging (three faultedThree)
    let w := logging (busy .logStop 0 0 0 State.reset)
    s.log.underWay = none ∧ s.log.state = .running ∧ logStopWaits s = false ∧
      ({ s.log with unconsumed := 1 }).unconsumed < s.log.capacity ∧
      ({ s.log with unconsumed := 2 }).unconsumed = s.log.capacity ∧
      (s.channel 3).fault = some (.unlogged someFault) ∧ logStopWaits w = true ∧
      w.log.underWay = none := by decide

/-- No ring record at U = C, no overflow record one below it, and neither beside a record under way. -/
theorem witness_LogRecordsBegin_idle :
    let l := (logging (three faultedThree)).log
    l.capacity ≤ ({ l with unconsumed := 2 }).unconsumed ∧
      ({ l with unconsumed := 1 }).unconsumed ≠ l.capacity ∧
      ({ l with underWay := some { target := .channel 3, slot := 0, written := 0 } }).underWay ≠ none := by
  decide

/-- A state in which each row that the end of an event carries out is due first. -/
theorem witness_EventEndFrame :
    let l : Loader := { set := 0, source := 20480, newLimit := 2, phase := .draining, progress := 0 }
    let f := logging (three faultedThree)
    let q := { f with log := { f.log with faultOrder := [3] } }
    let v := { q with log := { q.log with unconsumed := 2 } }
    let g := enabled (three (fetchingChannel []))
    drainedLoad { State.reset with loader := some l } ≠ none ∧
      (drainedLoad (busy .writeEntry 0 63 0 State.reset) = none ∧
        releasedWriteEntry (busy .writeEntry 0 63 0 State.reset) ≠ none) ∧
      (releasedWriteEntry (logging (busy .logStop 0 0 0 State.reset)) = none ∧
        logStopDue (logging (busy .logStop 0 0 0 State.reset)) = true) ∧
      (logStopDue q = false ∧ ringRecordDue q ≠ none) ∧ overflowRecordDue v ≠ none ∧
      (drainedLoad g = none ∧ releasedWriteEntry g = none ∧ logStopDue g = false ∧
        ringRecordDue g = none ∧ overflowRecordDue g = none ∧ canGrant g = true) ∧
      canGrant State.reset = false := by decide

theorem witness_PostJoinsQueue :
    (queued 23 State.reset).queue.records.length < 24 ∧
      24 ≤ (queued 24 State.reset).queue.records.length := by decide

theorem witness_SettlingSteps :
    let c := runningChannel (inbound 2) 2 2 []
    let d := { inbound 2 with link := some 0x2000, altLink := some 0x2001 }
    c.short = false ∧ (inbound 2).notify = true ∧ c.pendingEvent = none ∧ (inbound 2).hold = false ∧
      ({ c with pendingEvent := some someEvent }).pendingEvent ≠ none ∧
      (d.link = some 0x2000 ∧ (0x2000 : PhysAddr).toNat % 4 = 0) ∧
      (d.altLink = some 0x2001 ∧ (0x2001 : PhysAddr).toNat % 4 ≠ 0) ∧
      (inbound 2).link = none ∧ (inbound 2).altLink = none := by decide

theorem witness_ChannelGoesOn :
    let w := three { runningChannel (inbound 2) 2 2 [] with state := .settling .report }
    let h := three { fetchingChannel [] with state := .halting, resume := some .fetching }
    let a := three { idleChannel with state := .aborting }
    let b := three (runningChannel (inbound 2) 2 2 [])
    let q := three { runningChannel (inbound 5) 0 0 [] with request := some (.offer 9) }
    channelQuiet (three idleChannel) 3 = true ∧ resumedStep w 3 ≠ none ∧ leaveHaltingDue h 3 = true ∧
      leaveAbortingDue a 3 = true ∧ completedBlock b 3 ≠ none ∧ completedBlock q 3 = none ∧
      requestDue (q.channel 3) = true := by decide

/-! ### Witnesses: invariants, each in a state in which it says something -/

/-- A full queue with a waiter, a FAULTED channel with its record under way, and a block in account. -/
theorem witness_QueueInvariantKept :
    let s := queued 24 (three { idleChannel with pendingEvent := some someEvent })
    QueueInv { s with queue := { s.queue with waitList := [3] } } :=
  { depth := by decide, once := by decide, waiting := by decide, full := by decide }

theorem witness_FaultInvariantKept :
    let s := logging (three faultedThree)
    let u : UnderWay := { target := .channel 3, slot := 0, written := 1 }
    FaultInv { s with log := { s.log with faultOrder := [3], underWay := some u } } :=
  { held := by decide, once := by decide, listed := by decide, head := by decide }

theorem witness_LogInvariantKept :
    let s := logging State.reset
    LogInv { s with log := { s.log with state := .full, unconsumed := 2 } } :=
  { region := by decide, capacity := by decide, set := by decide, index := by decide, used := by decide
    full := by decide, sequence := by decide, fits := by decide }

theorem witness_WordAccountKept :
    AccountInv (flying (.dataRead 3 0 1) 20480 .deliver
      (three (runningChannel (outbound 5) 1 4 [1, 2, 3]))) :=
  accountInv_of_check _ (by decide)

theorem witness_SlotInvariantKept :
    SlotInv ((three (fetchingChannel [])).putSlot 3
      { lines := some .ask, answerValid := true, answer := some .refuse, early := some .endBlock }) :=
  { answer := by decide, early := by decide, none := by decide, fail := by decide }

theorem witness_NothingLeftDue :
    NothingDue (flying (.descRead 3) 4096 .deliver (enabled (three (fetchingChannel [])))) :=
  nothingDue_of_check _ (by decide)

theorem witness_CounterRangesKept :
    let s := three { runningChannel (inbound 2) 0 0 [] with stallLimit := 2, stallCounter := 1 }
    StallInv s ∧ AccountInv (three (fetchingChannel [1, 2])) ∧ FetchInv (three (fetchingChannel [1, 2])) ∧
      RangeInv s ∧ InterruptInv s :=
  ⟨{ bound := by decide, running := by decide }, accountInv_of_check _ (by decide),
    { words := by decide, progress := by decide, aligned := by decide, run := by decide },
    { streak := by decide, headAge := by decide, threshold := by decide, period := by decide
      prescaler := by decide },
    { events := by decide, intout := by decide }⟩

theorem witness_LongCommandsAndSetsKept :
    let c := { fetchingChannel [] with state := .halting, resume := some .fetching }
    BusyInv (flying (.descRead 3) 4096 .deliver (busy .halt 3 0 0 (three c))) where
  waits := by
    intro l hl
    cases hl
    decide
  halting := by decide
  aborting := by decide
  loading := by decide

set_option maxRecDepth 4000 in
/-- A load in READING beside an ORPHAN, with the LOAD MAP in progress. -/
theorem witness_LongCommandsAndSetsKept_sets :
    let l : Loader := { set := 0, source := 20480, newLimit := 64, phase := .reading, progress := 0 }
    let s := State.reset.putSet 0 { MapSet.reset with state := .loading }
    SetsInv (busy .loadMap 0 20480 64 { s with loader := some l }) where
  limit := by decide
  loading := by decide
  loader := by intro l hl; cases hl; decide
  beside := by intro t ht; cases ht
  command := by intro _; exact ⟨_, rfl, rfl⟩
  writeEntry := by intro l hl; cases hl; decide
  beyond := by decide
  cleared := by
    intro l p hl _ _
    cases hl
    revert p
    decide

end Sys2Proof.Tests
end

section
/-! SUPPORT. What the shared operations of the channels do, each said once: entering FAULTED (O47), a post (O48),
ABORT, the settling sequence, and the meeting of a standing request. -/

namespace Sys2Proof.Machine

-- The proofs are elaborated in turn: side by side their threads outgrow the check's memory limit.
set_option Elab.async false

variable (s : State) (n : ChannelNo)

/-- The fault record of a channel is the one that the claims write into the record in FAULTED (R132). -/
theorem toFaulted_faultRecord (k : FaultKind) :
    ({ s.channel n with request := none } : Channel).toFaulted (faultRecord s n k) =
      faultedChannel s n k := by
  unfold faultRecord faultedChannel
  generalize s.channel n = c
  rcases hc : c.contents with _ | (d | a)
  · simp only [hc, Channel.toFaulted]
  · simp only [hc, Channel.toFaulted, transferWordsDone_eq, wordsDone, Channel.nextLogical]
  · simp only [hc, Channel.toFaulted]

/-- A channel's own command in progress looks at the command port alone. -/
theorem commandOn_of_command {t : State} (cmd : HostCommand) (h : t.command = s.command) :
    commandOn t cmd n = commandOn s cmd n := by
  simp only [commandOn, h]

/-- What entering FAULTED does, field by field (R11, R19, R132). -/
theorem enterFaulted_eq (k : FaultKind) :
    enterFaulted n k s =
      { (s.putChannel n (faultedChannel s n k)).putSlot n
          (turnedAwaySlot (s.slot n) (s.channel n).request) with
        port := abandonedPort n s.port
        log := { s.log with faultOrder := s.log.faultOrder ++ [n] }
        interrupts := { s.interrupts with
          fault := true
          command := s.interrupts.command ||
            ((s.channel n).state == .halting && commandOn s .halt n) }
        command := if (s.channel n).state == .halting && commandOn s .halt n then
            { s.command with inProgress := none, lastResult := .badState }
          else s.command } := by
  simp only [enterFaulted, turnAway_eq, discardTransaction_eq, completeChannelCommand_eq,
    State.channel_with_port, State.channel_putSlot, State.channel_putChannel_self,
    toFaulted_faultRecord]
  conv_lhs => rw [commandOn_of_command s n .halt (by rfl)]
  cases (s.channel n).state == .halting
  · simp [latchFault, State.putChannel, State.putSlot]
  · cases commandOn s .halt n
    · simp [latchFault, State.putChannel, State.putSlot]
    · simp [latchFault, State.putChannel, State.putSlot, commandEnded]

theorem channel_enterFaulted (m : ChannelNo) (k : FaultKind) :
    (enterFaulted n k s).channel m = if m = n then faultedChannel s n k else s.channel m := by
  rw [enterFaulted_eq]
  exact State.channel_putChannel s n m _

/-- Settles O47: the equation of `enterFaulted`. -/
theorem faultEntry : Obligations.FaultEntry := by
  rintro s n k halt rfl
  exact enterFaulted_eq s n k

@[simp] theorem channel_discardTransaction (m : ChannelNo) :
    (discardTransaction n s).channel m = s.channel m := by
  rw [discardTransaction_eq]
  rfl

@[simp] theorem discardTransaction_log : (discardTransaction n s).log = s.log := by
  rw [discardTransaction_eq]

@[simp] theorem channel_turnAway_self :
    (turnAway n s).channel n = { s.channel n with request := none } := by
  rw [turnAway_eq]
  simp

theorem state_turnAway : ((turnAway n s).channel n).state = (s.channel n).state := by
  rw [channel_turnAway_self]

/-- What the taking of ABORT does to the channel, its slot, the port and the wait list (R24, R72). -/
theorem enterAborting_eq :
    enterAborting n s =
      { (s.putChannel n { (s.channel n).toAborting with request := none }).putSlot n
          (turnedAwaySlot (s.slot n) (s.channel n).request) with
        port := abandonedPort n s.port
        queue := { s.queue with waitList := s.queue.waitList.erase n } } := by
  have record : ((leaveWaitList n (discardTransaction n (turnAway n s))).channel n).toAborting =
      { (s.channel n).toAborting with request := none } := by
    rw [leaveWaitList, State.channel_with_queue, channel_discardTransaction, channel_turnAway_self]
    rfl
  unfold enterAborting
  dsimp only
  rw [record, leaveWaitList, discardTransaction_eq, turnAway_eq]
  simp [State.putChannel, State.putSlot]

/-! ### Posts (R9, R115) -/

section Posts

variable (m : ChannelNo) (k : EventKind) (words : BitVec 16)

/-- A post to a queue with room joins its tail (R115, R123). -/
theorem makePost_of_room (h : s.queue.records.length < 24) :
    makePost n k words s = { s with queue := { s.queue with
      records := s.queue.records ++ [postedRecord s n k words]
      headAge := if s.queue.records = [] then 0 else s.queue.headAge } } := by
  simp only [makePost, Config.queueDepth, h, if_true, eventRecord_eq, List.isEmpty_iff]

/-- A post to a full queue waits as the channel's pending event (R9). -/
theorem makePost_of_full (h : 24 ≤ s.queue.records.length) :
    makePost n k words s =
      { s.putChannel n { s.channel n with pendingEvent := some (postedRecord s n k words) } with
        queue := { s.queue with waitList := s.queue.waitList ++ [n] } } := by
  simp only [makePost, Config.queueDepth, Nat.not_lt.mpr h, if_false, eventRecord_eq]

/-- A post leaves every channel record as it is but for the pending event. -/
theorem makePost_channel : ∃ p, (makePost n k words s).channel m = { s.channel m with pendingEvent := p } := by
  rcases Nat.lt_or_ge s.queue.records.length 24 with room | full
  · exact ⟨_, by rw [makePost_of_room s n k words room]; rfl⟩
  · rw [makePost_of_full s n k words full, State.channel_with_queue, State.channel_putChannel]
    split
    · next e => exact ⟨_, by rw [e]⟩
    · exact ⟨_, rfl⟩

@[simp] theorem makePost_state :
    ((makePost n k words s).channel m).state = (s.channel m).state := by
  obtain ⟨p, h⟩ := makePost_channel s n m k words
  rw [h]

@[simp] theorem makePost_fault :
    ((makePost n k words s).channel m).fault = (s.channel m).fault := by
  obtain ⟨p, h⟩ := makePost_channel s n m k words
  rw [h]

@[simp] theorem makePost_request :
    ((makePost n k words s).channel m).request = (s.channel m).request := by
  obtain ⟨p, h⟩ := makePost_channel s n m k words
  rw [h]

/-- A post changes the channel records and the event queue alone. -/
theorem makePost_frame : ∃ c q, makePost n k words s = { s with channels := c, queue := q } := by
  rcases Nat.lt_or_ge s.queue.records.length 24 with room | full
  · exact ⟨_, _, makePost_of_room s n k words room⟩
  · exact ⟨_, _, makePost_of_full s n k words full⟩

@[simp] theorem makePost_log : (makePost n k words s).log = s.log := by
  obtain ⟨c, q, h⟩ := makePost_frame s n k words
  rw [h]

@[simp] theorem makePost_command : (makePost n k words s).command = s.command := by
  obtain ⟨c, q, h⟩ := makePost_frame s n k words
  rw [h]

end Posts

/-- Settles O48: the two equations of a post. -/
theorem postJoinsQueue : Obligations.PostJoinsQueue :=
  fun s n k words => ⟨makePost_of_room s n k words, makePost_of_full s n k words⟩

/-! ### How the settling sequence ends (R39, R41 to R45) -/

/-- What the steps HOLD and SELECT of the settling sequence come to from `s`. -/
inductive SettlingEnds (n : ChannelNo) (s : State) : State → Prop
  | follows (addr : PhysAddr) : SettlingEnds n s (followLink n addr s)
  | waits (step : SettlingStep) (full : (s.channel n).pendingEvent.isSome) :
      SettlingEnds n s (waitAtStep n step s)
  | holds (words : BitVec 16) : SettlingEnds n s
      ((makePost n .held words s).putChannel n
        { (makePost n .held words s).channel n with state := .holding })
  | ends (words : BitVec 16) : SettlingEnds n s (endChain n words s)

theorem settleSelect_ends (d : Transfer) : SettlingEnds n s (settleSelect n d s) := by
  unfold settleSelect
  dsimp only
  split
  · exact .follows _
  · split
    · exact .follows _
    · split
      · next full => exact .waits _ full
      · exact .ends _

theorem settleHold_ends (d : Transfer) : SettlingEnds n s (settleHold n d s) := by
  unfold settleHold
  dsimp only
  split
  · split
    · next full => exact .waits _ full
    · exact .holds _
  · exact settleSelect_ends s n d

/-- Step REPORT makes at most one post before the other steps. -/
theorem settleReport_ends (d : Transfer) : SettlingEnds n s (settleReport n d s) ∨
    ∃ k words, SettlingEnds n (makePost n k words s) (settleReport n d s) := by
  unfold settleReport
  dsimp only
  split
  · exact .inl (settleHold_ends s n d)
  · split
    · next full => exact .inl (.waits _ full)
    · exact .inr ⟨_, _, settleHold_ends _ n d⟩

theorem settleFrom_ends (step : SettlingStep) (d : Transfer) :
    SettlingEnds n s (settleFrom n step d s) ∨
      ∃ k words, SettlingEnds n (makePost n k words s) (settleFrom n step d s) := by
  cases step with
  | report => exact settleReport_ends s n d
  | hold => exact .inl (settleHold_ends s n d)
  | select => exact .inl (settleSelect_ends s n d)

/-- A block found complete is that of a RUNNING channel (R69). -/
theorem completedBlock_some {d : Transfer} (h : completedBlock s n = some d) :
    (s.channel n).state = .running ∧ (s.channel n).contents = some (.transfer d) := by
  unfold completedBlock at h
  dsimp only at h
  split at h
  · next running held =>
    split at h
    · cases h; exact ⟨running, held⟩
    · cases h
  · cases h

/-- A settling sequence goes on in SETTLING, with the channel's slot empty (R41). -/
theorem resumedStep_some {step : SettlingStep} {d : Transfer}
    (h : resumedStep s n = some (step, d)) :
    (s.channel n).state = .settling step ∧ (s.channel n).contents = some (.transfer d) ∧
      (s.channel n).pendingEvent = none := by
  unfold resumedStep at h
  dsimp only at h
  split at h
  · next settling held empty => cases h; exact ⟨settling, held, empty⟩
  · cases h

theorem halting_of_due {s : State} {n : ChannelNo} (h : leaveHaltingDue s n = true) :
    (s.channel n).state = .halting := by
  simp only [leaveHaltingDue, Bool.and_eq_true, beq_iff_eq] at h
  obtain ⟨⟨halting, -⟩, -⟩ := h
  exact halting

theorem aborting_of_due {s : State} {n : ChannelNo} (h : leaveAbortingDue s n = true) :
    (s.channel n).state = .aborting := by
  simp only [leaveAbortingDue, Bool.and_eq_true, beq_iff_eq] at h
  obtain ⟨⟨aborting, -⟩, -⟩ := h
  exact aborting

/-! ### How a standing request is met (R52 to R54, R57, R63 to R68) -/

/-- What meeting the request of channel `n` comes to: it stands, it is turned away, it faults the channel,
or it is answered by a RUNNING channel, which changes the words of its record and the port. -/
inductive RequestMet (n : ChannelNo) (s : State) : State → Prop
  | stands (waits : requestDue (s.channel n) = false) : RequestMet n s s
  | turned (state : answersAtOnce (s.channel n).state) : RequestMet n s (turnAway n s)
  | faults (k : FaultKind) (state : answersAtOnce (s.channel n).state = false) :
      RequestMet n s (enterFaulted n k s)
  | answered (t : State) (running : (s.channel n).state = .running)
      (others : ∀ m, m ≠ n → t.channel m = s.channel m) (log : t.log = s.log)
      (state : (t.channel n).state = .running) (request : (t.channel n).request = none)
      (fault : (t.channel n).fault = (s.channel n).fault) : RequestMet n s t

/-- An answer in RUNNING that goes on to change the words of the record. -/
theorem answer_met (a : Answer) (c : Channel) (running : (s.channel n).state = .running)
    (state : c.state = .running) (request : c.request = none)
    (fault : c.fault = (s.channel n).fault) :
    RequestMet n s ((answerRequest n a s).putChannel n c) := by
  rw [answerRequest_eq]
  refine .answered _ running (fun m e => ?_) rfl ?_ ?_ ?_ <;>
    simp [State.channel_putChannel_of_ne, *]

theorem meetEnd_met (d : Transfer) (running : (s.channel n).state = .running) :
    RequestMet n s (meetEnd n d s) := by
  unfold meetEnd
  dsimp only
  split
  · split
    · apply answer_met s n _ _ running <;> simp [answerRequest_eq, running]
    · refine .answered _ running (fun m e => ?_) (by simp [answerRequest_eq]) ?_ ?_ ?_ <;>
        simp [answerRequest_eq, State.channel_putChannel_of_ne, *]
  · rw [← State.putChannel_channel (answerRequest n _ s) n]
    apply answer_met s n _ _ running <;> simp [answerRequest_eq, running]

/-- Whether the answer of a request is due outside a block in RUNNING (R53, R54, R68). -/
theorem requestDue_waiting {c : Channel} {r : LinkRequest} (request : c.request = some r)
    (other : c.state = .running → ∀ d, c.contents ≠ some (.transfer d)) :
    requestDue c = (answersAtOnce c.state || r == .fail) := by
  unfold requestDue
  rw [request]
  dsimp only
  split
  · next d running held => exact absurd held (other running d)
  · rfl

theorem meetInRunning_met (d : Transfer) (r : LinkRequest) (request : (s.channel n).request = some r)
    (running : (s.channel n).state = .running) (held : (s.channel n).contents = some (.transfer d)) :
    RequestMet n s (meetInRunning n d r s) := by
  have stays : answersAtOnce (s.channel n).state = false := by rw [running]; rfl
  cases r with
  | offer w =>
    cases dir : d.direction with
    | inbound =>
      cases take : canTake (s.channel n) d
      · rw [show meetInRunning n d (.offer w) s = s by simp [meetInRunning, dir, take]]
        exact .stands (by simpa [requestDue, request, running, held, dir, canTake] using take)
      · rw [show meetInRunning n d (.offer w) s = takeWord n w s by simp [meetInRunning, dir, take]]
        apply answer_met s n _ _ running <;> simp [answerRequest_eq, running]
    | outbound =>
      rw [show meetInRunning n d (.offer w) s = enterFaulted n .linkProtocol s by
        simp [meetInRunning, dir]]
      exact .faults _ stays
  | ask =>
    cases dir : d.direction with
    | inbound =>
      rw [show meetInRunning n d .ask s = enterFaulted n .linkProtocol s by simp [meetInRunning, dir]]
      exact .faults _ stays
    | outbound =>
      cases staged : (s.channel n).staging with
      | nil =>
        rw [show meetInRunning n d .ask s = s by simp [meetInRunning, dir, staged]]
        exact .stands (by simp [requestDue, request, running, held, dir, staged])
      | cons w rest =>
        rw [show meetInRunning n d .ask s = giveWord n w rest s by simp [meetInRunning, dir, staged]]
        apply answer_met s n _ _ running <;> simp [answerRequest_eq, running]
  | endBlock => exact meetEnd_met s n d running
  | fail => exact .faults _ stays

theorem meetWhileWaiting_met (r : LinkRequest) (request : (s.channel n).request = some r)
    (state : answersAtOnce (s.channel n).state = false)
    (other : (s.channel n).state = .running → ∀ d, (s.channel n).contents ≠ some (.transfer d)) :
    RequestMet n s (meetWhileWaiting n r s) := by
  have due := requestDue_waiting request other
  rw [state] at due
  cases r with
  | fail => exact .faults _ state
  | offer _ | ask | endBlock => exact .stands (due.trans (by simp))

theorem meetRequest_met : RequestMet n s (meetRequest n s) := by
  unfold meetRequest
  dsimp only
  cases request : (s.channel n).request with
  | none => exact .stands (by simp [requestDue, request])
  | some r =>
    have waiting := meetWhileWaiting_met s n r request
    cases state : (s.channel n).state with
    | disabled | idle | aborting | faulted => exact .turned (by rw [state]; rfl)
    | fetching | settling _ | holding | halting | halted =>
      exact waiting (by rw [state]; rfl) (by simp [state])
    | running =>
      cases held : (s.channel n).contents with
      | none => exact waiting (by rw [state]; rfl) (by simp [held])
      | some x =>
        cases x with
        | linkOnly a => exact waiting (by rw [state]; rfl) (by simp [held])
        | transfer d => exact meetInRunning_met s n d r request state held

end Sys2Proof.Machine
end

section
/-! SUPPORT. Every command keeps the fault records and the fault order list in agreement (O54). -/

namespace Sys2Proof.Machine

-- The proofs are elaborated in turn: side by side their threads outgrow the check's memory limit.
set_option Elab.async false

variable {s t : State}

/-! ### What the invariant looks at -/

/-- A ring record under way is seen in the log writer alone. -/
theorem ringRecordFor_of_underWay (h : t.log.underWay = s.log.underWay) (n : ChannelNo) :
    ringRecordFor t n = ringRecordFor s n := by
  simp only [ringRecordFor, h]

/-- The invariant looks at the FAULTED states, the fault records, the list and the record under way. -/
theorem FaultInv.of_agree (h : FaultInv s)
    (state : ∀ n, (t.channel n).state = .faulted ↔ (s.channel n).state = .faulted)
    (fault : ∀ n, (t.channel n).fault = (s.channel n).fault)
    (order : t.log.faultOrder = s.log.faultOrder)
    (head : ∀ n, ringRecordFor t n → t.log.faultOrder.head? = some n ∧ t.log.state ≠ .off) :
    FaultInv t where
  held n := by rw [state, fault]; exact h.held n
  once := order ▸ h.once
  listed n := by rw [order, fault]; exact h.listed n
  head := head

/-- An update that leaves the log writer keeps its record under way in agreement. -/
theorem FaultInv.of_log (h : FaultInv s)
    (state : ∀ n, (t.channel n).state = .faulted ↔ (s.channel n).state = .faulted)
    (fault : ∀ n, (t.channel n).fault = (s.channel n).fault) (log : t.log = s.log) : FaultInv t :=
  h.of_agree state fault (by rw [log]) fun n under => by
    rw [ringRecordFor_of_underWay (s := s) (by rw [log])] at under
    rw [log]
    exact h.head n under

/-- An update beside the channels and the log writer keeps the invariant. -/
theorem FaultInv.of_tables (h : FaultInv s) (channels : t.channels = s.channels)
    (log : t.log = s.log) : FaultInv t :=
  h.of_log (fun n => by rw [State.channel_of_channels _ _ channels])
    (fun n => by rw [State.channel_of_channels _ _ channels]) log

/-- An update of the log writer that keeps its list. -/
theorem FaultInv.of_channels (h : FaultInv s) (channels : t.channels = s.channels)
    (order : t.log.faultOrder = s.log.faultOrder)
    (head : ∀ n, ringRecordFor t n → t.log.faultOrder.head? = some n ∧ t.log.state ≠ .off) :
    FaultInv t :=
  h.of_agree (fun n => by rw [State.channel_of_channels _ _ channels])
    (fun n => by rw [State.channel_of_channels _ _ channels]) order head

/-- A record replaced by one that agrees with it on FAULTED and on the fault record. -/
theorem FaultInv.putChannel (h : FaultInv s) (n : ChannelNo) {c : Channel}
    (state : c.state = .faulted ↔ (s.channel n).state = .faulted := by exact Iff.rfl)
    (fault : c.fault = (s.channel n).fault := by exact rfl) : FaultInv (s.putChannel n c) := by
  refine h.of_log (fun m => ?_) (fun m => ?_) rfl <;> rw [State.channel_putChannel] <;> split
  · next e => rw [e]; exact state
  · exact Iff.rfl
  · next e => rw [e]; exact fault
  · rfl

/-- A record outside FAULTED replaced by another such, with the fault record kept. -/
theorem FaultInv.putLive (h : FaultInv s) (n : ChannelNo) {c : Channel}
    (before : (s.channel n).state ≠ .faulted) (after : c.state ≠ .faulted := by simp)
    (fault : c.fault = (s.channel n).fault := by exact rfl) : FaultInv (s.putChannel n c) :=
  h.putChannel n (iff_of_false after before) fault

/-- A record without an unlogged fault put in place, and its channel taken from the list. -/
theorem FaultInv.unlist (h : FaultInv s) (n : ChannelNo) (c : Channel)
    (channels : t.channels = (s.putChannel n c).channels)
    (order : t.log.faultOrder = s.log.faultOrder.erase n)
    (held : c.state = .faulted ↔ c.fault.isSome) (logged : isUnlogged c.fault = false)
    (head : ∀ m, ringRecordFor t m → t.log.faultOrder.head? = some m ∧ t.log.state ≠ .off) :
    FaultInv t where
  held m := by
    rw [State.channel_of_channels _ _ channels, State.channel_putChannel]
    split
    · exact held
    · exact h.held m
  once := order ▸ h.once.erase n
  listed m := by
    rw [order, h.once.mem_erase_iff, State.channel_of_channels _ _ channels, State.channel_putChannel]
    split
    · next e => simp [e, logged]
    · next e => simp [e, h.listed m]
  head := head

theorem FaultInv.putSlot (h : FaultInv s) (n : ChannelNo) (l : Slot) : FaultInv (s.putSlot n l) :=
  h.of_tables rfl rfl

/-- A channel outside FAULTED holds no fault record and stands on no list (R12, R133). -/
theorem FaultInv.not_listed (h : FaultInv s) {n : ChannelNo} (live : (s.channel n).state ≠ .faulted) :
    n ∉ s.log.faultOrder := by
  have none : (s.channel n).fault = none := by
    rw [← Option.not_isSome_iff_eq_none, ← h.held n]
    exact live
  rw [h.listed n, none]
  exact Bool.noConfusion

/-! ### The shared operations -/

/-- A channel that is not FAULTED enters FAULTED at the tail of the list (R11, R133). -/
theorem FaultInv.enterFaulted (h : FaultInv s) {n : ChannelNo} (k : FaultKind)
    (live : (s.channel n).state ≠ .faulted) : FaultInv (enterFaulted n k s) := by
  have log : (Machine.enterFaulted n k s).log =
      { s.log with faultOrder := s.log.faultOrder ++ [n] } := by rw [enterFaulted_eq]
  have fresh := h.not_listed live
  constructor
  · intro m
    rw [channel_enterFaulted]
    split
    · simp [faultedChannel]
    · exact h.held m
  · rw [log]
    exact List.nodup_append.mpr ⟨h.once, by simp, fun a ha b hb e => fresh (by
      rw [← List.mem_singleton.mp hb, ← e]; exact ha)⟩
  · intro m
    rw [log, channel_enterFaulted, List.mem_append, List.mem_singleton]
    split
    · next e => simp [e, faultedChannel, isUnlogged]
    · next e => rw [h.listed m]; simp [e]
  · intro m under
    rw [ringRecordFor_of_underWay (s := s) (by rw [log])] at under
    obtain ⟨first, on⟩ := h.head m under
    rw [log]
    exact ⟨by rw [List.head?_append, first]; rfl, on⟩

theorem FaultInv.turnAway (h : FaultInv s) (n : ChannelNo) : FaultInv (turnAway n s) := by
  rw [turnAway_eq]
  exact (h.putChannel n).putSlot n _

theorem FaultInv.discardTransaction (h : FaultInv s) (n : ChannelNo) :
    FaultInv (discardTransaction n s) := by
  rw [discardTransaction_eq]
  exact h.of_tables rfl rfl

theorem FaultInv.completeChannelCommand (h : FaultInv s) (cmd : HostCommand) (n : ChannelNo)
    (r : ResultCode) : FaultInv (completeChannelCommand cmd n r s) := by
  rw [completeChannelCommand_eq]
  split
  · exact h.of_tables rfl rfl
  · exact h

theorem FaultInv.makePost (h : FaultInv s) (n : ChannelNo) (k : EventKind) (words : BitVec 16) :
    FaultInv (makePost n k words s) :=
  h.of_log (fun m => by rw [makePost_state]) (fun m => by rw [makePost_fault]) (by simp)

/-! ### Links and the settling sequence (R39, R41 to R45) -/

section Settling

variable {n : ChannelNo} (h : FaultInv s) (live : (s.channel n).state ≠ .faulted)
include h live

theorem FaultInv.enterFetching (addr : PhysAddr) : FaultInv (enterFetching n addr s) :=
  h.putLive n live

theorem FaultInv.followLink (addr : PhysAddr) : FaultInv (followLink n addr s) := by
  unfold Machine.followLink
  split
  · exact h.enterFetching live addr
  · exact (h.putChannel n).enterFaulted _ (by simpa using live)

/-- A post made, and the channel on to a state outside FAULTED. -/
theorem FaultInv.postAndPut (k : EventKind) (words : BitVec 16) {c : Channel}
    (after : c.state ≠ .faulted := by simp)
    (fault : c.fault = ((Machine.makePost n k words s).channel n).fault := by exact rfl) :
    FaultInv ((Machine.makePost n k words s).putChannel n c) :=
  (h.makePost n k words).putLive n (by simpa using live) after fault

theorem FaultInv.settlingEnds {t : State} (ends : SettlingEnds n s t) : FaultInv t := by
  cases ends with
  | follows addr => exact h.followLink live addr
  | waits step => exact h.putLive n live
  | holds words => exact h.postAndPut live _ _
  | ends words => exact h.postAndPut live _ _

theorem FaultInv.settleSelect (d : Transfer) : FaultInv (settleSelect n d s) :=
  h.settlingEnds live (settleSelect_ends s n d)

theorem FaultInv.settleFrom (step : SettlingStep) (d : Transfer) :
    FaultInv (settleFrom n step d s) := by
  rcases settleFrom_ends s n step d with ends | ⟨k, words, ends⟩
  · exact h.settlingEnds live ends
  · exact (h.makePost n k words).settlingEnds (by simpa using live) ends

end Settling

/-! ### The end of an event at a channel -/

section Channel

variable (h : FaultInv s) (n : ChannelNo)
include h

theorem FaultInv.completeBlock : FaultInv (completeBlock n s) := by
  unfold Machine.completeBlock
  split
  · exact h
  · next d due =>
    have live : (s.channel n).state ≠ .faulted := by rw [(completedBlock_some s n due).1]; simp
    exact h.settleFrom live .report d

theorem FaultInv.resumeSettling : FaultInv (resumeSettling n s) := by
  unfold Machine.resumeSettling
  split
  · exact h
  · next step d due =>
    have live : (s.channel n).state ≠ .faulted := by rw [(resumedStep_some s n due).1]; simp
    exact h.settleFrom live step d

theorem FaultInv.leaveHalting : FaultInv (leaveHalting n s) := by
  unfold Machine.leaveHalting
  split
  · next due =>
    exact (h.postAndPut (by rw [halting_of_due due]; simp) _ _).completeChannelCommand _ _ _
  · exact h

theorem FaultInv.leaveAborting : FaultInv (leaveAborting n s) := by
  unfold Machine.leaveAborting
  split
  · next due =>
    exact (h.postAndPut (by rw [aborting_of_due due]; simp) _ _).completeChannelCommand _ _ _
  · exact h

theorem FaultInv.requestMet {t : State} (met : RequestMet n s t) : FaultInv t := by
  cases met with
  | stands => exact h
  | turned => exact h.turnAway n
  | faults k state =>
    exact h.enterFaulted k fun e => by rw [e] at state; cases state
  | answered _ running others log state request fault =>
    refine h.of_log (fun m => ?_) (fun m => ?_) log
    all_goals by_cases e : m = n
    · rw [e, running, state]
    · rw [others m e]
    · rw [e, fault]
    · rw [others m e]

theorem FaultInv.meetRequest : FaultInv (meetRequest n s) :=
  h.requestMet n (meetRequest_met s n)

theorem FaultInv.carryOn : FaultInv (carryOn n s) :=
  (((((((h.resumeSettling n).leaveHalting n).leaveAborting n).completeBlock n).meetRequest
    n).completeBlock n).meetRequest n)

/-! ### Arrival (R50, R51) -/

theorem FaultInv.present (r : LinkRequest) : FaultInv (present n r s) :=
  (h.putChannel n).carryOn n

theorem FaultInv.arrive (r : LinkRequest) : FaultInv (arrive n r s) := by
  unfold Machine.arrive
  split
  · exact h.putSlot n _
  · split
    · exact h.putSlot n _
    · exact (h.putSlot n _).present n r

theorem FaultInv.arriveFail : FaultInv (arriveFail n s) := by
  unfold Machine.arriveFail
  split
  · exact h.putSlot n _
  · exact (h.putSlot n _).present n .fail

theorem FaultInv.lowerRequestValid : FaultInv (lowerRequestValid n s) := by
  unfold Machine.lowerRequestValid
  dsimp only
  split
  · split
    · exact h.putSlot n _
    · exact (h.putSlot n _).present n _
  · exact h.putSlot n _

end Channel

/-! ### The log writer (R137 to R145) -/

/-- An unlogged record is held whole (R12). -/
theorem isUnlogged_iff {f : Option HeldFault} : isUnlogged f = true ↔ ∃ r, f = some (.unlogged r) := by
  rcases f with _ | (r | k) <;> simp [isUnlogged]

section Log

variable (h : FaultInv s)
include h

/-- A record begun for the head of the list while the log is RUNNING (R137). -/
theorem FaultInv.beginRingRecord : FaultInv (beginRingRecord s) := by
  unfold Machine.beginRingRecord
  split
  · exact h
  · next n due =>
    unfold ringRecordDue at due
    split at due
    · next conditions =>
      simp only [Bool.and_eq_true, beq_iff_eq] at conditions
      obtain ⟨⟨⟨running, -⟩, -⟩, -⟩ := conditions
      refine h.of_channels rfl rfl fun m under => ?_
      have named : n = m := by simpa [ringRecordFor] using under
      exact ⟨named ▸ due, by simp [running]⟩
    · cases due

theorem FaultInv.beginOverflowRecord : FaultInv (beginOverflowRecord s) := by
  unfold Machine.beginOverflowRecord
  split
  · exact h
  · exact h.of_channels rfl rfl fun m under => by simp [ringRecordFor] at under

/-- With no record under way the list alone speaks of the log writer. -/
theorem FaultInv.of_no_record {t : State} (channels : t.channels = s.channels)
    (order : t.log.faultOrder = s.log.faultOrder) (none : t.log.underWay = none) : FaultInv t :=
  h.of_channels channels order fun m under => by simp [ringRecordFor, none] at under

theorem FaultInv.endLogStop : FaultInv (endLogStop s) := by
  unfold Machine.endLogStop
  split
  · next due =>
    simp only [logStopDue, Bool.and_eq_true, Option.isNone_iff_eq_none] at due
    exact h.of_no_record rfl rfl due.2
  · exact h

theorem FaultInv.logWork : FaultInv (logWork s) :=
  h.endLogStop.beginRingRecord.beginOverflowRecord

/-- The record of a channel whose ring record is complete becomes logged and leaves the list (R12, R140). -/
theorem FaultInv.finishRingRecord {n : ChannelNo} (under : ringRecordFor s n) :
    FaultInv (finishRingRecord n s) := by
  obtain ⟨first, -⟩ := h.head n under
  have listed : n ∈ s.log.faultOrder := List.mem_of_head? first
  obtain ⟨r, unlogged⟩ := isUnlogged_iff.mp ((h.listed n).mp listed)
  have faulted : (s.channel n).state = .faulted := (h.held n).mpr (by rw [unlogged]; rfl)
  have marked : markLogged n s =
      s.putChannel n { s.channel n with fault := some (.logged r.kind) } := by
    simp only [markLogged, unlogged]
  unfold Machine.finishRingRecord
  rw [marked]
  exact h.unlist n _ rfl rfl (by simp [faulted]) rfl fun m none => by simp [ringRecordFor] at none

theorem FaultInv.finishOverflowRecord : FaultInv (finishOverflowRecord s) := by
  unfold Machine.finishOverflowRecord
  dsimp only
  split <;> exact h.of_no_record rfl rfl rfl

theorem FaultInv.logWordDone {u : UnderWay} (under : s.log.underWay = some u) :
    FaultInv (logWordDone u s) := by
  unfold Machine.logWordDone
  split
  · split
    · next n target => exact h.finishRingRecord (by simp [ringRecordFor, under, target])
    · exact h.finishOverflowRecord
  · refine h.of_channels rfl rfl fun m still => ?_
    exact h.head m (by simpa [ringRecordFor, under] using still)

theorem FaultInv.deliverLogWrite (r : BusWrite) : FaultInv (deliverLogWrite r s) := by
  unfold Machine.deliverLogWrite
  split
  · next u under => exact h.logWordDone under
  · exact h.of_no_record rfl rfl rfl
  · exact h

end Log

/-! ### The map store and the arbiter -/

/-- A data request is one of a RUNNING channel (R58, R61, R99). -/
theorem eligibleRequest_running (s : State) (n : ChannelNo) {r : ChannelRequest}
    (request : eligibleRequest s n = some r) (data : ∀ addr, r ≠ .desc addr) :
    (s.channel n).state = .running := by
  have presented : channelRequest s n = some r := by
    unfold eligibleRequest at request
    split at request
    · cases request; exact absurd rfl (data _)
    · next e =>
      split at request
      · rw [e, request]
      · cases request
    · cases request
  unfold channelRequest at presented
  dsimp only at presented
  split at presented
  · cases presented
  · split at presented
    · split at presented
      · cases presented; exact absurd rfl (data _)
      · cases presented
    · next running => exact running
    · cases presented

/-- A grant to the channel class issues a transaction beside the channels and the log, leaves the state, or
faults a RUNNING channel. -/
inductive ChannelGranted (s : State) : GrantResult → Prop
  | issued (t : State) (channels : t.channels = s.channels) (log : t.log = s.log) :
      ChannelGranted s (.issued t)
  | same : ChannelGranted s (.refused s)
  | faults (n : ChannelNo) (k : FaultKind) (running : (s.channel n).state = .running) :
      ChannelGranted s (.refused (enterFaulted n k s))

theorem grantData_granted (s : State) (n : ChannelNo) (running : (s.channel n).state = .running)
    (m : SetNo) (logical : LogAddr) (a : Access) (purpose : PageNo → Purpose) :
    ChannelGranted s (grantData n m logical a purpose s) := by
  unfold grantData
  split
  · exact .issued _ rfl rfl
  · exact .faults n _ running

theorem grantChannel_granted (s : State) (n : ChannelNo) {r : ChannelRequest}
    (request : eligibleRequest s n = some r) : ChannelGranted s (grantChannel n r s) := by
  unfold grantChannel
  split
  · exact .issued _ rfl rfl
  · exact grantData_granted s n (eligibleRequest_running s n request (by simp)) _ _ _ _
  · exact grantData_granted s n (eligibleRequest_running s n request (by simp)) _ _ _ _
  · exact .same
  · exact .same

/-- A grant to the channel class, with each selection made again after a refusal (R79, R104). -/
theorem FaultInv.grantChannels (k : Nat) : ∀ {s : State}, FaultInv s → FaultInv (grantChannels k s) := by
  induction k with
  | zero => exact fun h => h
  | succ k ih =>
    intro s h
    unfold Machine.grantChannels
    split
    · exact h
    · split
      · exact h
      · next r request =>
        have granted := grantChannel_granted s _ request
        generalize grantChannel _ r s = g at granted
        cases granted with
        | issued t channels log => exact h.of_tables channels log
        | same => exact ih h
        | faults m kind running => exact ih (h.enterFaulted kind (by rw [running]; simp))

section Event

variable (h : FaultInv s)
include h

theorem FaultInv.endDrain : FaultInv (endDrain s) := by
  unfold Machine.endDrain
  split
  · exact h
  · exact h.of_tables rfl rfl

theorem FaultInv.endWriteEntry : FaultInv (endWriteEntry s) := by
  unfold Machine.endWriteEntry
  split
  · exact h
  · exact h.of_tables rfl rfl

theorem FaultInv.arbitrate : FaultInv (arbitrate s) := by
  unfold Machine.arbitrate
  split
  · split
    · exact h.of_tables rfl rfl
    · split
      · exact h.of_tables rfl rfl
      · exact h.grantChannels 17
  · exact h

theorem FaultInv.refreshInterrupts : FaultInv (refreshInterrupts s) :=
  h.of_tables rfl rfl

theorem FaultInv.finishEvent : FaultInv (finishEvent s) :=
  h.endDrain.endWriteEntry.logWork.arbitrate.logWork.arbitrate.refreshInterrupts

theorem FaultInv.finishChannelEvent (n : ChannelNo) : FaultInv (finishChannelEvent n s) :=
  (h.carryOn n).finishEvent

end Event

/-! ### Host commands -/

/-- The channel commands but CLEAR FAULT are taken outside FAULTED (R15 to R18, R22, R24). -/
theorem live_of_stateCheck {l : Latched} (check : stateCheck l s = none)
    (channel : checksChannel l.command = true) (other : l.command ≠ .clearFault) :
    (s.channel (channelOfOperand l.a)).state ≠ .faulted := by
  intro faulted
  unfold stateCheck at check
  dsimp only at check
  rw [faulted] at check
  cases cmd : l.command <;>
    simp [cmd, checksChannel, badStateUnless, continueTakenIn, abortTakenIn] at check channel other

theorem FaultInv.fault_eq_none (h : FaultInv s) {n : ChannelNo}
    (live : (s.channel n).state ≠ .faulted) : (s.channel n).fault = none := by
  rw [← Option.not_isSome_iff_eq_none, ← h.held n]
  exact live

/-- CLEAR FAULT is taken on a logged record, or with the log OFF (R27). -/
theorem clearFaultCheck_none {c : Channel} {log : LogState} (check : clearFaultCheck c log = none) :
    isUnlogged c.fault = false ∨ log = .off := by
  by_contra refused
  obtain ⟨unlogged, on⟩ := not_or.mp refused
  by_cases faulted : c.state = .faulted
  · have fails := (clearFaultCheck_iff c log .faultPending).mpr
      (.inr ⟨rfl, faulted, Bool.not_eq_false _ ▸ unlogged, on⟩)
    rw [check] at fails
    cases fails
  · have fails := (clearFaultCheck_iff c log .badState).mpr (.inl ⟨rfl, faulted⟩)
    rw [check] at fails
    cases fails

section Taken

variable (h : FaultInv s) (l : Latched)
include h

theorem FaultInv.completeCommand (r : ResultCode) : FaultInv (completeCommand r s) :=
  h.of_tables rfl rfl

theorem FaultInv.takeBind (live : (s.channel (channelOfOperand l.a)).state ≠ .faulted) :
    FaultInv (takeBind l s) :=
  ((h.putLive _ live).completeCommand .ok).refreshInterrupts

theorem FaultInv.takeUnbind (live : (s.channel (channelOfOperand l.a)).state ≠ .faulted) :
    FaultInv (takeUnbind l s) :=
  ((h.putLive _ live (by simp [Channel.reset]) (h.fault_eq_none live).symm).completeCommand
    .ok).refreshInterrupts

theorem FaultInv.takeStart (live : (s.channel (channelOfOperand l.a)).state ≠ .faulted) :
    FaultInv (takeStart l s) := by
  unfold Machine.takeStart
  exact (((h.completeCommand .ok).putChannel _).enterFetching (by simpa using live) _).finishChannelEvent _

theorem FaultInv.takeHalt (live : (s.channel (channelOfOperand l.a)).state ≠ .faulted) :
    FaultInv (takeHalt l s) := by
  unfold Machine.takeHalt
  exact (h.putLive _ live).finishChannelEvent _

theorem FaultInv.continueFrom {n : ChannelNo} (live : (s.channel n).state ≠ .faulted) :
    FaultInv (continueFrom n s) := by
  have restart : FaultInv (restartFetch n s) := by
    unfold restartFetch
    exact ((h.discardTransaction n).enterFetching (by simpa using live) _).putLive n
      (by simp [Machine.enterFetching]) (by simp [Machine.enterFetching])
  unfold Machine.continueFrom
  dsimp only
  split
  · exact h.putLive n live
  · exact restart
  · exact h.settleSelect live _
  · exact restart
  · exact h

theorem FaultInv.takeContinue (live : (s.channel (channelOfOperand l.a)).state ≠ .faulted) :
    FaultInv (takeContinue l s) := by
  unfold Machine.takeContinue
  exact ((h.completeCommand .ok).continueFrom live).finishChannelEvent _

theorem FaultInv.takeAbort (live : (s.channel (channelOfOperand l.a)).state ≠ .faulted) :
    FaultInv (takeAbort l s) := by
  have aborting : FaultInv (enterAborting (channelOfOperand l.a) s) := by
    rw [enterAborting_eq]
    exact (h.putLive _ live (by simp [Channel.toAborting])).of_tables rfl rfl
  exact aborting.finishChannelEvent _

/-- A cleared channel leaves the list, and no ring record under way is its own: its record was logged, or
the log is OFF (R27, R137). -/
theorem FaultInv.takeClearFault
    (check : clearFaultCheck (s.channel (channelOfOperand l.a)) s.log.state = none) :
    FaultInv (takeClearFault l s) := by
  unfold Machine.takeClearFault
  generalize channelOfOperand l.a = n at check ⊢
  have allowed := clearFaultCheck_none check
  have cleared : FaultInv { s.putChannel n (s.channel n).toCleared with
      log := { s.log with faultOrder := s.log.faultOrder.erase n } } := by
    refine h.unlist n _ rfl rfl (by simp [Channel.toCleared]) rfl fun m under => ?_
    obtain ⟨first, on⟩ := h.head m under
    have other : m ≠ n := by
      rintro rfl
      rcases allowed with logged | off
      · have unlogged := (h.listed m).mp (List.mem_of_head? first)
        rw [logged] at unlogged
        cases unlogged
      · exact on off
    obtain ⟨rest, e⟩ := List.head?_eq_some_iff.mp first
    exact ⟨by simp [e, other], on⟩
  exact (cleared.completeCommand .ok).refreshInterrupts

theorem FaultInv.takeSetLog : FaultInv (takeSetLog l s) := by
  have set : FaultInv { s with log := { s.log with
      state := .running
      base := l.a.setWidth 24
      capacity := l.b.setWidth 11
      writeIndex := 0
      unconsumed := 0
      nextSequence := 1 } } :=
    h.of_channels rfl rfl fun m under => ⟨(h.head m under).1, by simp⟩
  exact (set.completeCommand .ok).finishEvent

theorem FaultInv.takeLogStop : FaultInv (takeLogStop l s) := by
  unfold Machine.takeLogStop
  split
  · exact h
  · next none =>
    refine FaultInv.refreshInterrupts (h.of_no_record rfl rfl ?_)
    show s.log.underWay = Option.none
    simpa using none

theorem FaultInv.takeLogConsumed : FaultInv (takeLogConsumed l s) := by
  have consumed : FaultInv { s with log := { s.log with
      unconsumed := s.log.unconsumed - l.a.setWidth 11
      state := consumedState s.log.state } } := by
    refine h.of_channels rfl rfl fun m under => ⟨(h.head m under).1, ?_⟩
    have on := (h.head m under).2
    cases e : s.log.state <;> simp_all [consumedState]
  exact (consumed.completeCommand .ok).finishEvent

theorem FaultInv.takeLoadMap : FaultInv (takeLoadMap l s) := by
  unfold Machine.takeLoadMap
  dsimp only
  split <;> exact FaultInv.finishEvent (h.of_tables rfl rfl)

theorem FaultInv.takeWriteEntry : FaultInv (takeWriteEntry l s) := by
  unfold Machine.takeWriteEntry
  dsimp only
  split
  · exact h
  · exact h.of_tables rfl rfl

/-- What the owner of a command that has passed its state check does keeps the invariant. -/
theorem FaultInv.takeCommand (cmd : HostCommand) (check : stateCheck l s = none)
    (named : l.command = cmd) : FaultInv (takeCommand cmd l s) := by
  have live := live_of_stateCheck check
  subst named
  cases cmd : l.command with
  | bind => exact h.takeBind l (live (by rw [cmd]; rfl) (by simp [cmd]))
  | unbind => exact h.takeUnbind l (live (by rw [cmd]; rfl) (by simp [cmd]))
  | start => exact h.takeStart l (live (by rw [cmd]; rfl) (by simp [cmd]))
  | halt => exact h.takeHalt l (live (by rw [cmd]; rfl) (by simp [cmd]))
  | continueChannel => exact h.takeContinue l (live (by rw [cmd]; rfl) (by simp [cmd]))
  | abort => exact h.takeAbort l (live (by rw [cmd]; rfl) (by simp [cmd]))
  | clearFault => exact h.takeClearFault l (by simpa only [stateCheck, cmd] using check)
  | readChannel => exact h.of_tables rfl rfl
  | loadMap => exact h.takeLoadMap l
  | writeEntry => exact h.takeWriteEntry l
  | readEntry => exact h.of_tables rfl rfl
  | probe => exact h.of_tables rfl rfl
  | setLog => exact h.takeSetLog l
  | logStop => exact h.takeLogStop l
  | logConsumed => exact h.takeLogConsumed l

end Taken

/-- A command presented keeps the invariant: discarded, refused or taken (R163 to R165). -/
theorem FaultInv.presentCommand (h : FaultInv s) (cmd : HostCommand) :
    FaultInv (presentCommand cmd (Machine.takeCommand cmd) s) := by
  by_cases idle : s.command.inProgress = none
  · cases check : commandCheck (latch cmd s) s with
    | some r =>
      rw [presentCommand_refused s cmd _ idle r check]
      exact h.of_tables rfl rfl
    | none =>
      rw [presentCommand_taken s cmd _ idle check]
      have during : FaultInv (duringCommand cmd s) := h.of_tables rfl rfl
      refine during.takeCommand (latch cmd s) cmd ?_ rfl
      unfold commandCheck at check
      split at check
      · exact check
      · cases check
  · rw [presentCommand_busy s cmd _ idle]
    exact h.of_tables rfl rfl

/-! ### Resets and the register window -/

/-- With every channel at its reset values, no list and no record under way the invariant holds. -/
theorem FaultInv.of_reset (channels : ∀ n, t.channel n = Channel.reset)
    (log : t.log = LogWriter.reset) : FaultInv t where
  held n := by simp [channels n, Channel.reset]
  once := by simp [log, LogWriter.reset]
  listed n := by simp [channels n, log, LogWriter.reset, Channel.reset, isUnlogged]
  head n under := by simp [ringRecordFor, log, LogWriter.reset] at under

theorem channel_of_replicate {t : State} (h : t.channels = Vector.replicate 16 Channel.reset)
    (n : ChannelNo) : t.channel n = Channel.reset := by
  simp [State.channel, h]

theorem FaultInv.softReset (s : State) : FaultInv (softReset s) :=
  .of_reset (channel_of_replicate rfl) rfl

theorem FaultInv.powerOn (s : State) : FaultInv (powerOn s) :=
  .of_reset (channel_of_replicate rfl) rfl

section Window

variable (h : FaultInv s)
include h

theorem FaultInv.writeControl (w : Word) : FaultInv (writeControl w s) := by
  unfold Machine.writeControl
  split
  · exact .softReset s
  · exact FaultInv.finishEvent (h.of_tables rfl rfl)

theorem FaultInv.writeCommand (w : Word) : FaultInv (writeCommand w s) := by
  unfold Machine.writeCommand
  split
  · exact h.presentCommand _
  · unfold presentUnknown
    split
    · exact h.of_tables rfl rfl
    · exact h.of_tables rfl rfl

theorem FaultInv.writeTimerPeriod (w : Word) : FaultInv (writeTimerPeriod w s) := by
  unfold Machine.writeTimerPeriod
  split
  · exact h
  · exact h.of_tables rfl rfl

theorem FaultInv.windowWrite (offset : BitVec 5) (w : Word) : FaultInv (windowWrite offset w s) := by
  unfold Machine.windowWrite
  split
  · exact h.writeControl w
  · exact h.of_tables rfl rfl
  · exact h.writeCommand w
  · exact h.of_tables rfl rfl
  · exact h.of_tables rfl rfl
  · exact h.of_tables rfl rfl
  · exact h.of_tables rfl rfl
  · exact h.writeTimerPeriod w
  · exact h

end Window

/-! ### Completions (R34, R59, R60, R62, R86, R138) -/

theorem live_of_takesData {n : ChannelNo} (takes : takesData (s.channel n).state = true) :
    (s.channel n).state ≠ .faulted := fun e => by
  rw [e] at takes
  cases takes

section Completions

variable (h : FaultInv s)
include h

theorem FaultInv.freePort : FaultInv (freePort s) := h.of_tables rfl rfl

theorem FaultInv.acceptLinkOnly {n : ChannelNo} (live : (s.channel n).state ≠ .faulted)
    (link : PhysAddr) : FaultInv (acceptLinkOnly n link s) := by
  unfold Machine.acceptLinkOnly
  dsimp only
  split
  · exact (h.putChannel n).followLink (by simpa using live) _
  · exact (h.putChannel n).enterFaulted _ (by simpa using live)

theorem FaultInv.acceptDescriptor {n : ChannelNo} (live : (s.channel n).state ≠ .faulted)
    (words : List Word) : FaultInv (acceptDescriptor n words s) := by
  unfold Machine.acceptDescriptor
  split
  · exact h.enterFaulted _ live
  · exact h.putLive n live
  · exact h.acceptLinkOnly live _

theorem FaultInv.descWordArrives {n : ChannelNo} (live : (s.channel n).state ≠ .faulted) (w : Word) :
    FaultInv (descWordArrives n w s) := by
  have kept : FaultInv (keepDescWord n w s) := h.putChannel n
  unfold Machine.descWordArrives
  dsimp only
  split
  · exact (kept.putChannel n).acceptDescriptor (by simpa [dropFetched, keepDescWord] using live) _
  · exact kept

theorem FaultInv.deliverDescRead (n : ChannelNo) (r : BusRead) : FaultInv (deliverDescRead n r s) := by
  unfold Machine.deliverDescRead
  split
  · next fetching =>
    have live : (s.channel n).state ≠ .faulted := by rw [fetching]; simp
    split
    · exact h.descWordArrives live _
    · exact h.enterFaulted _ live
  · next halting =>
    split
    · exact h.putChannel n
    · exact h.enterFaulted _ (by rw [halting]; simp)
  · exact h

theorem FaultInv.deliverDataWrite (n : ChannelNo) (r : BusWrite) :
    FaultInv (deliverDataWrite n r s) := by
  unfold Machine.deliverDataWrite
  split
  · next takes =>
    split
    · exact h.putChannel n
    · exact h.enterFaulted _ (live_of_takesData takes)
  · exact h

theorem FaultInv.deliverDataRead (n : ChannelNo) (r : BusRead) :
    FaultInv (deliverDataRead n r s) := by
  unfold Machine.deliverDataRead
  split
  · next takes =>
    split
    · exact h.putChannel n
    · exact h.enterFaulted _ (live_of_takesData takes)
  · exact h

theorem FaultInv.handBack (n : ChannelNo) (d : Delivery) {deliver : State → State}
    (kept : FaultInv (deliver s)) : FaultInv (handBack n d deliver s) := by
  cases d with
  | deliver => exact kept.carryOn n
  | discard => exact h.carryOn n
  | orphan => exact h

theorem FaultInv.completeDescRead (r : BusRead) : FaultInv (completeDescRead r s) := by
  unfold Machine.completeDescRead
  split
  · exact (h.freePort.handBack _ _ (h.freePort.deliverDescRead _ r)).finishEvent
  · exact h

theorem FaultInv.completeDataWrite (r : BusWrite) : FaultInv (completeDataWrite r s) := by
  unfold Machine.completeDataWrite
  split
  · next n m p x a d flying =>
    dsimp only
    split
    · have marked : FaultInv (setModified m p (Machine.freePort s)) := h.freePort.of_tables rfl rfl
      exact (marked.handBack _ _ (marked.deliverDataWrite _ r)).finishEvent
    · exact (h.freePort.handBack _ _ (h.freePort.deliverDataWrite _ r)).finishEvent
  · exact h

theorem FaultInv.completeDataRead (r : BusRead) : FaultInv (completeDataRead r s) := by
  unfold Machine.completeDataRead
  split
  · exact (h.freePort.handBack _ _ (h.freePort.deliverDataRead _ r)).finishEvent
  · exact h

theorem FaultInv.deliverMapRead (r : BusRead) : FaultInv (deliverMapRead r s) := by
  unfold Machine.deliverMapRead
  split
  · unfold fillEntry
    dsimp only
    split <;> exact h.of_tables rfl rfl
  · exact h.of_tables rfl rfl
  · exact h

theorem FaultInv.completeMapRead (r : BusRead) : FaultInv (completeMapRead r s) := by
  unfold Machine.completeMapRead
  split
  · split
    · exact (h.freePort.deliverMapRead r).finishEvent
    · exact h.freePort.finishEvent
  · exact h

theorem FaultInv.completeLogWrite (r : BusWrite) : FaultInv (completeLogWrite r s) := by
  unfold Machine.completeLogWrite
  split
  · split
    · exact (h.freePort.deliverLogWrite r).finishEvent
    · exact h.freePort.finishEvent
  · exact h

/-! ### The event queue and the interval timer -/

theorem FaultInv.movePending (n : ChannelNo) (r : EventRecord) : FaultInv (movePending n r s) := by
  have emptied : FaultInv (s.putChannel n { s.channel n with pendingEvent := none }) := h.putChannel n
  exact emptied.of_tables rfl rfl

theorem FaultInv.popEvent : FaultInv (popEvent s) := by
  unfold Machine.popEvent
  split
  · exact h.of_tables rfl rfl
  · next r rest e =>
    have removed : FaultInv (removeHead { s with readData := r.word1 }) := h.of_tables rfl rfl
    dsimp only
    split
    · exact removed.refreshInterrupts
    · exact (removed.movePending _ _).finishChannelEvent _

end Completions

/-- Only a RUNNING channel stalls (R157, R158). -/
theorem running_of_stalled {c : Channel} (h : stalled c = true) : c.state = .running := by
  simp only [stalled, Bool.and_eq_true] at h
  obtain ⟨⟨-, ready⟩, -⟩ := h
  unfold readyForPeripheral at ready
  split at ready
  · next running _ => exact running
  · cases ready

/-- Channels that time out on one tick fault one after the other (R159). -/
theorem FaultInv.faultStalled (due : List ChannelNo) (once : due.Nodup) :
    ∀ {s : State}, FaultInv s → (∀ n ∈ due, (s.channel n).state ≠ .faulted) →
      FaultInv (faultStalled due s) := by
  induction due with
  | nil => exact fun h _ => h
  | cons n rest ih =>
    intro s h live
    obtain ⟨fresh, once⟩ := List.nodup_cons.mp once
    refine ih once (h.enterFaulted .stallTimeout (live n (by simp))) fun m hm => ?_
    rw [channel_enterFaulted, if_neg fun e : m = n => fresh (e ▸ hm)]
    exact live m (List.mem_cons_of_mem _ hm)

theorem FaultInv.timeOutStalled (h : FaultInv s) : FaultInv (timeOutStalled s) := by
  have order := orderByRank_perm (Config.tickOrder s.tickDraws) (stalledChannels s)
  have draw : FaultInv { s with tickDraws := s.tickDraws + 1 } := h.of_tables rfl rfl
  refine draw.faultStalled _ (order.nodup_iff.mpr (channelNumbers_nodup.filter _)) fun n hn => ?_
  have running := running_of_stalled (List.mem_filter.mp (order.mem_iff.mp hn)).2
  rw [State.channel_with_tickDraws, running]
  simp

/-- A tick changes a record's stall counter alone (R158). -/
theorem tickChannel_frame (c : Channel) :
    (tickChannel c).state = c.state ∧ (tickChannel c).fault = c.fault := by
  unfold tickChannel
  split <;> exact ⟨rfl, rfl⟩

theorem FaultInv.tickEvent (h : FaultInv s) : FaultInv (tickEvent s) := by
  have ticked : FaultInv { s with
      timer := { s.timer with tickCount := s.timer.tickCount + 1 }
      channels := mapTable tickChannel s.channels
      queue := tickHeadAge s.queue } := by
    have read : ∀ n : ChannelNo,
        (mapTable tickChannel s.channels)[n.val] = tickChannel (s.channel n) := fun n => by
      rw [getElem_mapTable]
      rfl
    refine h.of_log (fun n => ?_) (fun n => ?_) rfl
    · show ((mapTable tickChannel s.channels)[n.val]).state = _ ↔ _
      rw [read, (tickChannel_frame _).1]
    · show ((mapTable tickChannel s.channels)[n.val]).fault = _
      rw [read, (tickChannel_frame _).2]
  exact ticked.timeOutStalled.finishEvent

theorem FaultInv.restartPrescaler (h : FaultInv s) : FaultInv (restartPrescaler s) :=
  h.of_tables rfl rfl

theorem FaultInv.microsecond (h : FaultInv s) : FaultInv (microsecond s) := by
  unfold Machine.microsecond
  split
  · exact h.of_tables rfl rfl
  · exact h.restartPrescaler.tickEvent

/-! ### Every command -/

/-- A row that acts where its condition holds, and changes nothing elsewhere. -/
theorem FaultInv.ite (h : FaultInv s) {p : Prop} [Decidable p] (acts : p → FaultInv t) :
    FaultInv (if p then t else s) := by
  split
  · next hp => exact acts hp
  · exact h

/-- Every command keeps the fault records and the fault order list in agreement (R12, R133, R137). -/
theorem FaultInv.exec (h : FaultInv s) (c : Instr) (run : exec c s = .next t) : FaultInv t := by
  cases c <;> injection run with run <;> subst run
  case powerOnReset => exact .powerOn s
  case softReset w => exact .softReset s
  case offer n w => exact (h.arrive n _).finishEvent
  case ask n => exact (h.arrive n _).finishEvent
  case endBlock n => exact (h.arrive n _).finishEvent
  case fail n => exact (h.arriveFail n).finishEvent
  case requestValidFall n => exact (h.lowerRequestValid n).finishEvent
  case descReadComplete r => exact h.completeDescRead r
  case dataWriteComplete r => exact h.completeDataWrite r
  case dataReadComplete r => exact h.completeDataRead r
  case mapReadComplete r => exact h.completeMapRead r
  case logWriteComplete r => exact h.completeLogWrite r
  case grant => exact h.ite fun _ => h.arbitrate.finishEvent
  case tick => exact h.restartPrescaler.tickEvent
  case stallTimeout n =>
    exact h.ite fun due => (h.enterFaulted _ (by rw [running_of_stalled due]; simp)).finishEvent
  case ageCondition => exact h.ite fun _ => h.refreshInterrupts
  case bind => exact h.presentCommand .bind
  case unbind => exact h.presentCommand .unbind
  case start => exact h.presentCommand .start
  case halt => exact h.presentCommand .halt
  case continueChannel => exact h.presentCommand .continueChannel
  case abort => exact h.presentCommand .abort
  case clearFault => exact h.presentCommand .clearFault
  case readChannel => exact h.presentCommand .readChannel
  case loadMap => exact h.presentCommand .loadMap
  case writeEntry => exact h.presentCommand .writeEntry
  case readEntry => exact h.presentCommand .readEntry
  case probe => exact h.presentCommand .probe
  case setLog => exact h.presentCommand .setLog
  case logStop => exact h.presentCommand .logStop
  case logConsumed => exact h.presentCommand .logConsumed
  case unknownCommand w => exact h.writeCommand w
  case masterEnable w => exact h.writeControl w
  case interruptEnable w => exact h.writeControl w
  case interruptStatusClear w => exact h.of_tables rfl rfl
  case pop => exact h.popEvent
  case eventSettingsWrite w => exact h.of_tables rfl rfl
  case timerPeriodWrite w => exact h.writeTimerPeriod w
  case registerWrite offset w => exact h.windowWrite offset w
  case waitingRequestMet n => exact h.ite fun _ => (h.meetRequest n).finishChannelEvent n
  case waitingPost n =>
    exact h.ite fun _ => ((h.resumeSettling n).leaveHalting n).finishChannelEvent n
  case blockComplete n => exact h.ite fun _ => (h.completeBlock n).finishChannelEvent n
  case leaveHalting n => exact h.ite fun _ => (h.leaveHalting n).finishChannelEvent n
  case leaveAborting n => exact h.ite fun _ => (h.leaveAborting n).finishChannelEvent n
  case drainEnd => exact h.ite fun _ => h.endDrain.finishEvent
  case writeEntryReplace => exact h.ite fun _ => h.endWriteEntry.finishEvent
  case logRecordBegin => exact h.ite fun _ => h.beginRingRecord.finishEvent
  case overflowRecordBegin => exact h.ite fun _ => h.beginOverflowRecord.finishEvent
  case logStopComplete => exact h.ite fun _ => h.endLogStop.finishEvent

/-- Settles O54: every command and every microsecond keeps the invariant, which the queue of commands does
not touch. -/
theorem faultInvariantKept : Obligations.FaultInvariantKept :=
  step_keeps (fun _ _ h => h.of_tables rfl rfl) (fun c _ _ h run => h.exec c run)
    fun _ h => h.microsecond

end Sys2Proof.Machine
end

section
/-! SUPPORT. What a channel adds to an event that has reached it (O50), and how it leaves HALTING and ABORTING
(O44). -/

namespace Sys2Proof.Machine

-- The proofs are elaborated in turn: side by side their threads outgrow the check's memory limit.
set_option Elab.async false

variable {s t : State} {n : ChannelNo}

/-! ### A channel at which nothing but a request can be due -/

/-- At channel `n` no transition is due but the answer to a request. -/
structure AtRest (s : State) (n : ChannelNo) : Prop where
  settling : resumedStep s n = none
  halting : leaveHaltingDue s n = false
  aborting : leaveAbortingDue s n = false
  block : completedBlock s n = none

/-- A state in which a channel only waits, or answers every request on its arrival. -/
theorem AtRest.of_state (h : (s.channel n).state = .fetching ∨ (s.channel n).state = .holding ∨
      (s.channel n).state = .halted ∨ (s.channel n).state = .idle ∨ (s.channel n).state = .faulted) :
    AtRest s n := by
  constructor
  · exact resumedStep_of_state s n fun step e => by simp [e] at h
  · exact leaveHaltingDue_of_state s n fun e => by simp [e] at h
  · exact leaveAbortingDue_of_state s n fun e => by simp [e] at h
  · exact completedBlock_of_state s n fun e => by simp [e] at h

theorem resumedStep_of_pending (h : (s.channel n).pendingEvent.isSome) : resumedStep s n = none := by
  cases due : resumedStep s n with
  | none => rfl
  | some x =>
    obtain ⟨-, -, empty⟩ := resumedStep_some s n (step := x.1) (d := x.2) due
    rw [empty] at h
    cases h

/-- A channel in SETTLING whose post waits has nothing due (R41). -/
theorem AtRest.of_waiting_post {step : SettlingStep} (settling : (s.channel n).state = .settling step)
    (full : (s.channel n).pendingEvent.isSome) : AtRest s n where
  settling := resumedStep_of_pending full
  halting := leaveHaltingDue_of_state s n (by simp [settling])
  aborting := leaveAbortingDue_of_state s n (by simp [settling])
  block := completedBlock_of_state s n (by simp [settling])

/-- The settling sequence comes to rest. -/
theorem SettlingEnds.atRest (ends : SettlingEnds n s t) : AtRest t n := by
  cases ends with
  | follows addr =>
    refine .of_state ?_
    unfold followLink
    split
    · simp [enterFetching]
    · simp [channel_enterFaulted, faultedChannel]
  | waits step full =>
    exact .of_waiting_post (step := step) (by simp [waitAtStep]) (by simpa [waitAtStep] using full)
  | holds words => exact .of_state (by simp)
  | ends words => exact .of_state (by simp [endChain])

/-- The settling sequence presents no request. -/
theorem SettlingEnds.request (ends : SettlingEnds n s t) (none : (s.channel n).request = none) :
    (t.channel n).request = Option.none := by
  cases ends with
  | follows addr =>
    unfold followLink
    split
    · simp [enterFetching, none]
    · simp [channel_enterFaulted, faultedChannel]
  | waits step full => simp [waitAtStep, none]
  | holds words => simp [none]
  | ends words => simp [endChain, none]

theorem settleFrom_atRest (s : State) (n : ChannelNo) (step : SettlingStep) (d : Transfer) :
    AtRest (settleFrom n step d s) n := by
  rcases settleFrom_ends s n step d with ends | ⟨k, words, ends⟩
  · exact ends.atRest
  · exact ends.atRest

theorem settleReport_request (d : Transfer) (none : (s.channel n).request = none) :
    ((settleReport n d s).channel n).request = Option.none := by
  rcases settleReport_ends s n d with ends | ⟨k, words, ends⟩
  · exact ends.request none
  · exact ends.request (by simpa using none)

/-! ### Each transition, once carried out -/

/-- After a block has been settled the channel is at rest. -/
theorem completeBlock_atRest (h : completedBlock s n ≠ none) : AtRest (completeBlock n s) n := by
  obtain ⟨d, due⟩ := Option.ne_none_iff_exists'.mp h
  rw [show completeBlock n s = settleFrom n .report d s by simp [completeBlock, due, settleFrom]]
  exact settleFrom_atRest s n .report d

theorem completedBlock_completeBlock (s : State) (n : ChannelNo) :
    completedBlock (completeBlock n s) n = none := by
  by_cases h : completedBlock s n = none
  · rw [completeBlock_of_none s n h, h]
  · exact (completeBlock_atRest h).block

theorem completeBlock_request (none : (s.channel n).request = none) :
    ((completeBlock n s).channel n).request = Option.none := by
  unfold completeBlock
  split
  · exact none
  · exact settleReport_request _ none

theorem resumeSettling_atRest (h : resumedStep s n ≠ none) : AtRest (resumeSettling n s) n := by
  obtain ⟨⟨step, d⟩, due⟩ := Option.ne_none_iff_exists'.mp h
  rw [show resumeSettling n s = settleFrom n step d s by simp [resumeSettling, due]]
  exact settleFrom_atRest s n step d

/-- A record is read past the end of a command. -/
theorem channel_completeChannelCommand (s : State) (n m : ChannelNo) (cmd : HostCommand)
    (r : ResultCode) : (completeChannelCommand cmd n r s).channel m = s.channel m := by
  rw [completeChannelCommand_eq]
  split <;> rfl

theorem leaveHalting_state (h : leaveHaltingDue s n = true) :
    ((leaveHalting n s).channel n).state = .halted := by
  simp [leaveHalting, h, channel_completeChannelCommand]

theorem leaveAborting_state (h : leaveAbortingDue s n = true) :
    ((leaveAborting n s).channel n).state = .idle := by
  simp [leaveAborting, h, channel_completeChannelCommand]

theorem meetRequest_of_none (h : (s.channel n).request = none) : meetRequest n s = s :=
  meetRequest_of_not_due s n (by simp [requestDue, h])

/-- A request whose answer is due no longer stands when it has been met. -/
theorem meetRequest_request (due : requestDue (s.channel n) = true) :
    ((meetRequest n s).channel n).request = none := by
  have met := meetRequest_met s n
  generalize meetRequest n s = t at met
  cases met with
  | stands waits => rw [due] at waits; cases waits
  | turned => simp
  | faults k => simp [channel_enterFaulted, faultedChannel]
  | answered _ _ _ _ _ request => exact request

/-- Meeting a request sets going no settling, halting or aborting channel. -/
theorem RequestMet.keeps_rest (met : RequestMet n s t) (settling : resumedStep s n = none)
    (halting : leaveHaltingDue s n = false) (aborting : leaveAbortingDue s n = false) :
    resumedStep t n = none ∧ leaveHaltingDue t n = false ∧ leaveAbortingDue t n = false := by
  cases met with
  | stands => exact ⟨settling, halting, aborting⟩
  | turned state =>
    have flight : (turnAway n s).channelInFlight n = s.channelInFlight n := by rw [turnAway_eq]; rfl
    refine ⟨resumedStep_of_state _ _ fun step e => ?_, leaveHaltingDue_of_state _ _ fun e => ?_, ?_⟩
    · rw [← state_turnAway, e] at state
      cases state
    · rw [← state_turnAway, e] at state
      cases state
    · unfold leaveAbortingDue at aborting ⊢
      rw [flight, channel_turnAway_self]
      exact aborting
  | faults k =>
    have rest : AtRest (enterFaulted n k s) n :=
      .of_state (by simp [channel_enterFaulted, faultedChannel])
    exact ⟨rest.settling, rest.halting, rest.aborting⟩
  | answered _ _ _ _ running =>
    exact ⟨resumedStep_of_state _ _ (by simp [running]), leaveHaltingDue_of_state _ _ (by simp [running]),
      leaveAbortingDue_of_state _ _ (by simp [running])⟩

/-! ### A transition that is due comes first, and the channel goes on from it -/

theorem carryOn_resumeSettling (h : resumedStep s n ≠ none) :
    carryOn n (leaveHalting n (resumeSettling n s)) = carryOn n s := by
  have rest := resumeSettling_atRest h
  rw [leaveHalting_of_not_due _ _ rest.halting, carryOn, carryOn,
    resumeSettling_of_none _ _ rest.settling]

theorem carryOn_leaveHalting (h : leaveHaltingDue s n = true) :
    carryOn n (leaveHalting n s) = carryOn n s := by
  have rest : AtRest (leaveHalting n s) n := .of_state (by simp [leaveHalting_state h])
  have settling : resumedStep s n = none :=
    resumedStep_of_state s n (by simp [halting_of_due h])
  rw [carryOn, carryOn, resumeSettling_of_none _ _ rest.settling, leaveHalting_of_not_due _ _ rest.halting,
    resumeSettling_of_none _ _ settling]

theorem carryOn_leaveAborting (h : leaveAbortingDue s n = true) :
    carryOn n (leaveAborting n s) = carryOn n s := by
  have rest : AtRest (leaveAborting n s) n := .of_state (by simp [leaveAborting_state h])
  have settling : resumedStep s n = none :=
    resumedStep_of_state s n (by simp [aborting_of_due h])
  have halting : leaveHaltingDue s n = false :=
    leaveHaltingDue_of_state s n (by simp [aborting_of_due h])
  rw [carryOn, carryOn, resumeSettling_of_none _ _ rest.settling, leaveHalting_of_not_due _ _ rest.halting,
    leaveAborting_of_not_due _ _ rest.aborting, resumeSettling_of_none _ _ settling,
    leaveHalting_of_not_due _ _ halting]

/-- What is left of an event where no settling, halting or aborting channel goes on. -/
theorem carryOn_of_no_transition (settling : resumedStep s n = none)
    (halting : leaveHaltingDue s n = false) (aborting : leaveAbortingDue s n = false) :
    carryOn n s = meetRequest n (completeBlock n (meetRequest n (completeBlock n s))) := by
  rw [carryOn, resumeSettling_of_none s n settling, leaveHalting_of_not_due s n halting,
    leaveAborting_of_not_due s n aborting]

theorem carryOn_completeBlock (h : completedBlock s n ≠ none) :
    carryOn n (completeBlock n s) = carryOn n s := by
  obtain ⟨d, due⟩ := Option.ne_none_iff_exists'.mp h
  have running := (completedBlock_some s n due).1
  have rest := completeBlock_atRest h
  rw [carryOn_of_no_transition rest.settling rest.halting rest.aborting,
    completeBlock_of_none _ _ rest.block,
    carryOn_of_no_transition (resumedStep_of_state s n (by simp [running]))
      (leaveHaltingDue_of_state s n (by simp [running]))
      (leaveAbortingDue_of_state s n (by simp [running]))]

/-- Once the standing request has been answered, the block that this completes is all that is left. -/
theorem carryOn_meetRequest (rest : AtRest s n) (due : requestDue (s.channel n) = true) :
    carryOn n (meetRequest n s) = carryOn n s := by
  obtain ⟨settling, halting, aborting⟩ :=
    (meetRequest_met s n).keeps_rest rest.settling rest.halting rest.aborting
  have answered := completeBlock_request (meetRequest_request due)
  rw [carryOn_of_no_transition settling halting aborting, meetRequest_of_none answered,
    completeBlock_of_none _ _ (completedBlock_completeBlock _ n), meetRequest_of_none answered,
    carryOn_of_no_transition rest.settling rest.halting rest.aborting,
    completeBlock_of_none _ _ rest.block, meetRequest_of_none answered]

/-! ### The rows of a channel's transitions -/

theorem exec_waitingPost (h : waitingPostDue s n = true) : exec (.waitingPost n) s =
    .next (finishChannelEvent n (leaveHalting n (resumeSettling n s))) :=
  congrArg Host.Outcome.next (if_pos h)

theorem exec_leaveHalting (h : leaveHaltingDue s n = true) : exec (.leaveHalting n) s =
    .next (finishChannelEvent n (leaveHalting n s)) :=
  congrArg Host.Outcome.next (if_pos h)

theorem exec_leaveAborting (h : leaveAbortingDue s n = true) : exec (.leaveAborting n) s =
    .next (finishChannelEvent n (leaveAborting n s)) :=
  congrArg Host.Outcome.next (if_pos h)

theorem exec_blockComplete (h : (completedBlock s n).isSome = true) : exec (.blockComplete n) s =
    .next (finishChannelEvent n (completeBlock n s)) :=
  congrArg Host.Outcome.next (if_pos h)

theorem exec_waitingRequestMet (h : (s.channel n).request.isSome = true) :
    exec (.waitingRequestMet n) s = .next (finishChannelEvent n (meetRequest n s)) :=
  congrArg Host.Outcome.next (if_pos h)

theorem request_of_due {c : Channel} (h : requestDue c = true) : c.request.isSome = true := by
  cases e : c.request with
  | none => simp [requestDue, e] at h
  | some r => rfl

/-! ### How an event that has reached a channel goes on -/

theorem AtRest.finishChannelEvent_of_not_due (rest : AtRest s n)
    (request : requestDue (s.channel n) = false) : finishChannelEvent n s = finishEvent s := by
  rw [finishChannelEvent, carryOn_eq_self s n rest.settling rest.halting rest.aborting rest.block request]

theorem finishChannelEvent_of_resumed (due : resumedStep s n ≠ none) :
    .next (finishChannelEvent n s) = exec (.waitingPost n) s := by
  rw [exec_waitingPost (by simp [waitingPostDue, Option.isSome_iff_ne_none.mpr due]), finishChannelEvent,
    finishChannelEvent, carryOn_resumeSettling due]

theorem finishChannelEvent_of_leaveHalting (due : leaveHaltingDue s n = true) :
    .next (finishChannelEvent n s) = exec (.leaveHalting n) s := by
  rw [exec_leaveHalting due, finishChannelEvent, finishChannelEvent, carryOn_leaveHalting due]

theorem finishChannelEvent_of_leaveAborting (due : leaveAbortingDue s n = true) :
    .next (finishChannelEvent n s) = exec (.leaveAborting n) s := by
  rw [exec_leaveAborting due, finishChannelEvent, finishChannelEvent, carryOn_leaveAborting due]

theorem finishChannelEvent_of_completedBlock (due : completedBlock s n ≠ none) :
    .next (finishChannelEvent n s) = exec (.blockComplete n) s := by
  rw [exec_blockComplete (Option.isSome_iff_ne_none.mpr due), finishChannelEvent, finishChannelEvent,
    carryOn_completeBlock due]

theorem AtRest.finishChannelEvent_of_due (rest : AtRest s n) (due : requestDue (s.channel n) = true) :
    .next (finishChannelEvent n s) = exec (.waitingRequestMet n) s := by
  rw [exec_waitingRequestMet (request_of_due due), finishChannelEvent, finishChannelEvent,
    carryOn_meetRequest rest due]

/-- Settles O50: the transition that is due comes first, and going on from it is going on from the event. -/
theorem channelGoesOn : Obligations.ChannelGoesOn := fun _ _ =>
  ⟨fun settling halting aborting block =>
      AtRest.finishChannelEvent_of_not_due ⟨settling, halting, aborting, block⟩,
    finishChannelEvent_of_resumed, finishChannelEvent_of_leaveHalting,
    finishChannelEvent_of_leaveAborting, finishChannelEvent_of_completedBlock,
    fun settling halting aborting block =>
      AtRest.finishChannelEvent_of_due ⟨settling, halting, aborting, block⟩⟩

/-! ### Leaving HALTING and ABORTING (R19, R25) -/

theorem leaveHaltingDue_eq_true (state : (s.channel n).state = .halting)
    (flight : s.channelInFlight n = false) (slot : (s.channel n).pendingEvent = none) :
    leaveHaltingDue s n = true := by
  simp [leaveHaltingDue, state, flight, slot]

theorem leaveAbortingDue_eq_true (state : (s.channel n).state = .aborting)
    (flight : s.channelInFlight n = false) (slot : (s.channel n).pendingEvent = none) :
    leaveAbortingDue s n = true := by
  simp [leaveAbortingDue, state, flight, slot]

theorem leaveHaltingDue_eq_false (h : (s.channel n).state ≠ .halting ∨ s.channelInFlight n = true ∨
    (s.channel n).pendingEvent ≠ none) : leaveHaltingDue s n = false := by
  rcases h with state | flight | slot
  · exact leaveHaltingDue_of_state s n state
  · simp [leaveHaltingDue, flight]
  · simp [leaveHaltingDue, Option.isSome_iff_ne_none, slot]

theorem leaveAbortingDue_eq_false (h : (s.channel n).state ≠ .aborting ∨ s.channelInFlight n = true ∨
    (s.channel n).pendingEvent ≠ none) : leaveAbortingDue s n = false := by
  rcases h with state | flight | slot
  · exact leaveAbortingDue_of_state s n state
  · simp [leaveAbortingDue, flight]
  · simp [leaveAbortingDue, Option.isSome_iff_ne_none, slot]

/-- A command in progress on the channel completes (R19, R25). -/
theorem completeChannelCommand_of_commandOn (cmd : HostCommand) (r : ResultCode)
    (h : commandOn s cmd n = true) (same : t.command = s.command) :
    completeChannelCommand cmd n r t = commandEnded r t := by
  rw [completeChannelCommand_eq, commandOn_of_command s n cmd same, if_pos h]

/-- The words done of a HALTED record, by the resume state (R19). -/
theorem haltedWordsDone_eq {c : Channel} {words : BitVec 16}
    (h : c.resume = some .fetching ∧ words = 0 ∨
      c.resume = some .running ∧ ∃ d, c.contents = some (.transfer d) ∧ words = wordsDone c d) :
    haltedWordsDone c = words := by
  unfold haltedWordsDone
  rcases h with ⟨resume, rfl⟩ | ⟨resume, d, held, rfl⟩
  · simp only [resume]
  · simp only [resume, held, transferWordsDone_eq]

theorem exec_leaveHalting_eq {words : BitVec 16} (state : (s.channel n).state = .halting)
    (flight : s.channelInFlight n = false) (slot : (s.channel n).pendingEvent = none)
    (request : (s.channel n).request ≠ some .fail) (command : commandOn s .halt n = true)
    (counted : haltedWordsDone (s.channel n) = words) :
    exec (.leaveHalting n) s = .next (finishEvent (commandEnded .ok
      ((makePost n .halted words s).putChannel n
        { (makePost n .halted words s).channel n with state := .halted }))) := by
  have due := leaveHaltingDue_eq_true state flight slot
  have left : leaveHalting n s = commandEnded .ok ((makePost n .halted words s).putChannel n
      { (makePost n .halted words s).channel n with state := .halted }) := by
    simp only [leaveHalting, due, if_true, counted]
    exact completeChannelCommand_of_commandOn .halt .ok command (by simp)
  have waits : carryOn n (leaveHalting n s) = leaveHalting n s := by
    refine carryOn_of_waiting _ n (.inr (.inr (leaveHalting_state due))) ?_
    rw [leaveHalting, if_pos due, channel_completeChannelCommand]
    simpa using request
  rw [exec_leaveHalting due, finishChannelEvent, waits, left]

theorem exec_leaveAborting_eq {words : BitVec 16} (state : (s.channel n).state = .aborting)
    (flight : s.channelInFlight n = false) (slot : (s.channel n).pendingEvent = none)
    (request : (s.channel n).request = none) (command : commandOn s .abort n = true)
    (counted : (s.channel n).abortWordsDone = some words) :
    exec (.leaveAborting n) s = .next (finishEvent (commandEnded .ok
      ((makePost n .aborted words s).putChannel n
        { (makePost n .aborted words s).channel n with
          state := .idle
          abortWordsDone := none
          short := false
          stallCounter := 0 }))) := by
  have due := leaveAbortingDue_eq_true state flight slot
  have left : leaveAborting n s = commandEnded .ok ((makePost n .aborted words s).putChannel n
      { (makePost n .aborted words s).channel n with
        state := .idle
        abortWordsDone := none
        short := false
        stallCounter := 0 }) := by
    simp only [leaveAborting, due, if_true, counted, Option.getD_some]
    exact completeChannelCommand_of_commandOn .abort .ok command (by simp)
  have waits : carryOn n (leaveAborting n s) = leaveAborting n s := by
    refine carryOn_of_answering _ n (.inr (.inl (leaveAborting_state due))) ?_
    rw [leaveAborting, if_pos due, channel_completeChannelCommand]
    simpa using request
  rw [exec_leaveAborting due, finishChannelEvent, waits, left]

theorem exec_waitingPost_of_halting (state : (s.channel n).state = .halting)
    (due : leaveHaltingDue s n = true) : exec (.waitingPost n) s = exec (.leaveHalting n) s := by
  rw [exec_waitingPost (by simp [waitingPostDue, due]), exec_leaveHalting due,
    resumeSettling_of_none s n (resumedStep_of_state s n (by simp [state]))]

theorem exec_waitingPost_of_settling {step : SettlingStep} {d : Transfer}
    (due : resumedStep s n = some (step, d)) :
    exec (.waitingPost n) s = .next (finishChannelEvent n (settleFrom n step d s)) := by
  have resumed : resumeSettling n s = settleFrom n step d s := by simp [resumeSettling, due]
  rw [exec_waitingPost (by simp [waitingPostDue, due]), resumed,
    leaveHalting_of_not_due _ _ (settleFrom_atRest s n step d).halting]

theorem exec_waitingPost_of_not_due (settling : resumedStep s n = none)
    (halting : leaveHaltingDue s n = false) : exec (.waitingPost n) s = .next s :=
  congrArg Host.Outcome.next (if_neg (by simp [waitingPostDue, settling, halting]))

theorem exec_leaveHalting_of_not_due (h : leaveHaltingDue s n = false) :
    exec (.leaveHalting n) s = .next s :=
  congrArg Host.Outcome.next (if_neg (by simp [h]))

theorem exec_leaveAborting_of_not_due (h : leaveAbortingDue s n = false) :
    exec (.leaveAborting n) s = .next s :=
  congrArg Host.Outcome.next (if_neg (by simp [h]))

/-- Without a transfer descriptor no settling sequence goes on (R41). -/
theorem resumedStep_of_contents
    (h : ∀ step d, (s.channel n).state = .settling step → (s.channel n).contents ≠ some (.transfer d)) :
    resumedStep s n = none := by
  cases due : resumedStep s n with
  | none => rfl
  | some x =>
    obtain ⟨settling, held, -⟩ := resumedStep_some s n (step := x.1) (d := x.2) due
    exact absurd held (h _ _ settling)

/-- Settles O44: the two states are left with their posts where the row is due, and kept elsewhere. -/
theorem haltingAndAbortingLeft : Obligations.HaltingAndAbortingLeft := by
  intro s n
  refine ⟨?_, ?_, ?_, ?_, ?_, ?_, ?_⟩
  · rintro words state flight slot request command counted posted rfl
    exact ⟨exec_leaveHalting_eq state flight slot request command (haltedWordsDone_eq counted),
      exec_waitingPost_of_halting state (leaveHaltingDue_eq_true state flight slot)⟩
  · rintro words state flight slot request command counted posted rfl
    exact exec_leaveAborting_eq state flight slot request command counted
  · intro step d state held slot
    exact exec_waitingPost_of_settling (resumedStep_settling s n step d state held slot)
  · exact fun h => exec_leaveHalting_of_not_due (leaveHaltingDue_eq_false h)
  · exact fun h => exec_leaveAborting_of_not_due (leaveAbortingDue_eq_false h)
  · intro full
    exact exec_waitingPost_of_not_due (resumedStep_of_pending (Option.isSome_iff_ne_none.mpr full))
      (leaveHaltingDue_eq_false (.inr (.inr full)))
  · intro none h
    exact exec_waitingPost_of_not_due (resumedStep_of_contents none)
      (leaveHaltingDue_eq_false (h.imp_right .inl))

end Sys2Proof.Machine
end

section
/-! SUPPORT. The host commands refused (O12), and the channel and reporting commands taken (O13 to O19). -/

namespace Sys2Proof.Machine

-- The proofs are elaborated in turn: side by side their threads outgrow the check's memory limit.
set_option Elab.async false

variable {s : State} {n : ChannelNo}

/-! ### Refused and taken -/

@[simp] theorem channel_duringCommand (cmd : HostCommand) (s : State) (n : ChannelNo) :
    (duringCommand cmd s).channel n = s.channel n := rfl

@[simp] theorem channelInFlight_duringCommand (cmd : HostCommand) (s : State) (n : ChannelNo) :
    (duringCommand cmd s).channelInFlight n = s.channelInFlight n := rfl

@[simp] theorem channel_afterCommand (code : BitVec 8) (r : ResultCode) (x y z : Word) (s : State)
    (n : ChannelNo) : (afterCommand code r x y z s).channel n = s.channel n := rfl

/-- The row of a host command presents it (R163). -/
theorem exec_commandInstr (cmd : HostCommand) (s : State) :
    exec (commandInstr cmd) s = .next (presentCommand cmd (takeCommand cmd) s) := by
  cases cmd <;> rfl

/-- A code that no command has spells none (R165 stage 1). -/
theorem hostCommandOfCode_eq_none {code : BitVec 8} (h : ∀ cmd, hostCommandCode cmd ≠ code) :
    hostCommandOfCode code = none := by
  rw [hostCommandOfCode, List.find?_eq_none]
  exact fun cmd _ => by simpa using h cmd

theorem exec_unknownCommand (idle : PortIdle s) (w : Word)
    (h : ∀ cmd, hostCommandCode cmd ≠ w.setWidth 8) :
    exec (.unknownCommand w) s =
      .next (refreshInterrupts (afterCommand (w.setWidth 8) .badCommand 0 0 0 s)) := by
  have unknown : hostCommandOfCode (writtenCode w) = none := hostCommandOfCode_eq_none h
  have free : s.command.inProgress.isSome = false := by rw [idle]; rfl
  have presented : writeCommand w s = refuseCommand .badCommand (acceptCode (writtenCode w) s) := by
    simp only [writeCommand, unknown, presentUnknown, free, Bool.false_eq_true, if_false]
  exact congrArg Host.Outcome.next presented

theorem exec_refused (idle : PortIdle s) (cmd : HostCommand) {r : ResultCode}
    (check : commandCheck (latch cmd s) s = some r) :
    exec (commandInstr cmd) s =
      .next (refreshInterrupts (afterCommand (hostCommandCode cmd) r 0 0 0 s)) := by
  rw [exec_commandInstr, presentCommand_refused s cmd _ idle r check]

theorem exec_taken (idle : PortIdle s) (cmd : HostCommand)
    (check : commandCheck (latch cmd s) s = none) :
    exec (commandInstr cmd) s = .next (takeCommand cmd (latch cmd s) (duringCommand cmd s)) := by
  rw [exec_commandInstr, presentCommand_taken s cmd _ idle check]

/-- Settles O12: each stage of the check is the check of the model. -/
theorem refusedCommands : Obligations.RefusedCommands := by
  intro s idle
  refine ⟨fun w h => exec_unknownCommand idle w h, fun cmd illegal => ?_,
    fun cmd n r legal operand fails => ?_⟩
  · refine exec_refused idle cmd ?_
    rw [commandCheck, if_neg (mt (operandsInRange_iff s cmd).mp illegal)]
  · refine exec_refused idle cmd ?_
    rw [commandCheck, if_pos ((operandsInRange_iff s cmd).mpr legal)]
    refine (stateCheck_iff s cmd n r fun channel => ?_).mpr fails
    rcases operand with rfl | rfl | rfl | named
    · cases channel
    · cases channel
    · cases channel
    · exact named

/-! ### What nothing left due says of a standing request -/

/-- A FAIL is always due (R68). -/
theorem requestDue_fail {c : Channel} (h : c.request = some .fail) : requestDue c = true := by
  unfold requestDue
  rw [h]
  dsimp only
  split
  · split <;> rfl
  · simp

theorem NothingDue.no_fail (quiet : NothingDue s) (n : ChannelNo) :
    (s.channel n).request ≠ some .fail := fun e => by
  have due := quiet.request n
  rw [requestDue_fail e] at due
  cases due

/-- A FAIL apart, no request is due in a state that holds requests waiting (R53, R54). -/
theorem requestDue_of_waiting {c : Channel} (request : c.request ≠ some .fail)
    (state : answersAtOnce c.state = false) (other : c.state ≠ .running) : requestDue c = false := by
  cases e : c.request with
  | none => simp [requestDue, e]
  | some r =>
    rw [requestDue_waiting e fun running => absurd running other, state]
    simpa [e] using request

theorem operand_lt {w : Word} {n : ChannelNo} (h : w.toNat = n.val) : w.toNat < 16 :=
  h ▸ n.isLt

/-! ### BIND, UNBIND and CLEAR FAULT (R15, R16, R27) -/

theorem exec_bind (idle : PortIdle s) {m : SetNo} (operand : s.command.operandA.toNat = n.val)
    (state : (s.channel n).state = .disabled ∨ (s.channel n).state = .idle)
    (set : s.command.operandB.toNat = m.val) (limit : s.command.operandC.toNat ≤ 255) :
    exec .bind s = .next (refreshInterrupts ((afterCommand 0x01 .ok 0 0 0 s).putChannel n
      { s.channel n with
        state := .idle
        mapSet := some m
        stallLimit := s.command.operandC.setWidth 8
        stallCounter := 0 })) := by
  have taken := exec_taken idle .bind (commandCheck_none s .bind n (fun _ => operand)
    ⟨operand_lt operand, set ▸ m.isLt, limit⟩ (fun r fails => by
      obtain ⟨-, disabled, idle⟩ := fails
      exact state.elim disabled idle))
  rw [← channelOfOperand_eq operand, ← setOfOperand_eq set]
  exact taken

theorem exec_unbind (idle : PortIdle s) (operand : s.command.operandA.toNat = n.val)
    (state : (s.channel n).state = .idle) (slot : (s.channel n).pendingEvent = none)
    (request : (s.channel n).request = none) :
    exec .unbind s =
      .next (refreshInterrupts ((afterCommand 0x02 .ok 0 0 0 s).putChannel n Channel.reset)) := by
  have taken := exec_taken idle .unbind (commandCheck_none s .unbind n (fun _ => operand)
    (operand_lt operand) (fun r fails => fails.2.elim (absurd state) (absurd slot)))
  have record : Channel.reset = { Channel.reset with request := (s.channel n).request } := by
    rw [request]
    rfl
  rw [record, ← channelOfOperand_eq operand]
  exact taken

/-- Settles O13: the two commands as they are taken. -/
theorem bindAndUnbind : Obligations.BindAndUnbind :=
  fun _ _ _ idle operand => ⟨exec_bind idle operand, exec_unbind idle operand⟩

/-- Settles O18: the check of R27 passes, and the record is the cleared one. -/
theorem clearFaultTaken : Obligations.ClearFaultTaken := by
  intro s n idle operand faulted cleared
  have taken := exec_taken idle .clearFault (commandCheck_none s .clearFault n (fun _ => operand)
    (operand_lt operand) (fun r fails => by
      rcases fails with ⟨-, other⟩ | ⟨-, -, unlogged, on⟩
      · exact other faulted
      · rcases cleared with logged | off
        · rw [logged] at unlogged
          cases unlogged
        · exact on off))
  rw [← channelOfOperand_eq operand]
  exact taken

/-! ### START and HALT (R17 to R19) -/

/-- A channel in FETCHING, HOLDING or HALTED only waits, on an event that leaves its request as it was. -/
theorem NothingDue.finishChannelEvent_waiting (quiet : NothingDue s) {t : State}
    (state : (t.channel n).state = .fetching ∨ (t.channel n).state = .holding ∨
      (t.channel n).state = .halted)
    (request : (t.channel n).request = (s.channel n).request) :
    finishChannelEvent n t = finishEvent t := by
  rw [finishChannelEvent, carryOn_of_waiting t n state (request ▸ quiet.no_fail n)]

/-- Settles O14: the channel in FETCHING only waits. -/
theorem startFetches : Obligations.StartFetches := by
  intro s n quiet idle operand space aligned state
  have taken := exec_taken idle .start (commandCheck_none s .start n (fun _ => operand)
    ⟨operand_lt operand, space, aligned⟩ (fun r fails => fails.2 state))
  have effect : enterFetching n (s.command.operandB.setWidth 24)
      ((completeCommand .ok (duringCommand .start s)).putChannel n
        { s.channel n with linkOnlyRun := 0, short := false }) =
      (afterCommand 0x03 .ok 0 0 0 s).putChannel n
        { s.channel n with
          state := .fetching
          descAddr := s.command.operandB.setWidth 24
          fetchProgress := 0
          fetched := []
          contents := none
          linkOnlyRun := 0
          short := false } := by
    rw [enterFetching, State.putChannel_putChannel, State.channel_putChannel_self]
    rfl
  rw [← quiet.finishChannelEvent_waiting (n := n) (by simp) (by simp), ← effect,
    ← channelOfOperand_eq operand]
  exact taken

/-- A HALTING channel with something to wait for adds nothing to an event (R19). -/
theorem finishChannelEvent_of_halting (state : (s.channel n).state = .halting)
    (waits : s.channelInFlight n = true ∨ (s.channel n).pendingEvent ≠ none)
    (request : (s.channel n).request ≠ some .fail) : finishChannelEvent n s = finishEvent s :=
  AtRest.finishChannelEvent_of_not_due
    { settling := resumedStep_of_state s n (by simp [state])
      halting := leaveHaltingDue_eq_false (.inr waits)
      aborting := leaveAbortingDue_of_state s n (by simp [state])
      block := completedBlock_of_state s n (by simp [state]) }
    (requestDue_of_waiting request (by rw [state]; rfl) (by simp [state]))

/-- HALT as it is taken, before what the channel adds to the event (R18). -/
theorem exec_halt (idle : PortIdle s) {back : ResumeState} (operand : s.command.operandA.toNat = n.val)
    (state : (s.channel n).state = .fetching ∧ back = .fetching ∨
      (s.channel n).state = .running ∧ back = .running) :
    exec .halt s = .next (finishChannelEvent n ((duringCommand .halt s).putChannel n
      { s.channel n with state := .halting, resume := some back })) := by
  have taken := exec_taken idle .halt (commandCheck_none s .halt n (fun _ => operand)
    (operand_lt operand) (fun r fails => by
      obtain ⟨-, fetching, running⟩ := fails
      exact state.elim (fun h => fetching h.1) fun h => running h.1))
  have resume : back =
      if (s.channel n).state = .running then ResumeState.running else ResumeState.fetching := by
    rcases state with ⟨fetching, rfl⟩ | ⟨running, rfl⟩
    · rw [if_neg (by simp [fetching])]
    · rw [if_pos running]
  rw [resume, ← channelOfOperand_eq operand]
  exact taken

/-- Settles O15: the HALTING channel waits, or leaves on the same event. -/
theorem haltTaken : Obligations.HaltTaken := by
  intro s n back quiet idle operand state
  rw [exec_halt idle operand state]
  refine ⟨fun waits => ?_, fun flight slot => ?_⟩
  · rw [finishChannelEvent_of_halting (by simp)]
    · simpa using waits
    · simpa using quiet.no_fail n
  · exact finishChannelEvent_of_leaveHalting
      (leaveHaltingDue_eq_true (by simp) flight (by simpa using slot))

/-! ### CONTINUE (R22, R23) -/

/-- A fetch starts again at word 0, its read in flight abandoned (R22). -/
theorem restartFetch_eq (s : State) (n : ChannelNo) :
    restartFetch n s = (discardTransaction n s).putChannel n { s.channel n with
      state := .fetching
      fetchProgress := 0
      fetched := []
      contents := none
      resume := none } := by
  simp [restartFetch, enterFetching]

/-- CONTINUE as it is taken (R22, R23). -/
theorem exec_continue (idle : PortIdle s) (operand : s.command.operandA.toNat = n.val)
    (state : continueTakenIn (s.channel n).state = true) :
    exec .continueChannel s =
      .next (finishChannelEvent n (continueFrom n (afterCommand 0x05 .ok 0 0 0 s))) := by
  have taken := exec_taken idle .continueChannel (commandCheck_none s .continueChannel n
    (fun _ => operand) (operand_lt operand) (fun r fails => by
      obtain ⟨-, halted, fetching, holding⟩ := fails
      cases e : (s.channel n).state <;> simp_all [continueTakenIn]))
  rw [← channelOfOperand_eq operand]
  exact taken

/-- Settles O16: the three ways in which a channel is continued. -/
theorem continueTaken : Obligations.ContinueTaken := by
  intro s n quiet idle operand
  refine ⟨fun state resume => ?_, fun state => ?_, fun d state held => ?_⟩
  · rw [exec_continue idle operand (by rw [state]; rfl)]
    simp only [continueFrom, channel_afterCommand, state, resume, resumeRunning]
  · have restarted : continueFrom n (afterCommand 0x05 .ok 0 0 0 s) =
        restartFetch n (afterCommand 0x05 .ok 0 0 0 s) := by
      rcases state with ⟨halted, resume⟩ | fetching
      · simp only [continueFrom, channel_afterCommand, halted, resume]
      · simp only [continueFrom, channel_afterCommand, fetching]
    rw [exec_continue idle operand (by rcases state with ⟨e, -⟩ | e <;> rw [e] <;> rfl), restarted,
      restartFetch_eq, quiet.finishChannelEvent_waiting (by simp) (by simp), discardTransaction_eq]
    rfl
  · rw [exec_continue idle operand (by rw [state]; rfl)]
    simp only [continueFrom, channel_afterCommand, state, held]

/-! ### ABORT (R24, R25) -/

theorem abortWords_eq (c : Channel) : abortWords c =
    match c.contents with
    | some (.transfer d) => wordsDone c d
    | _ => 0 := by
  unfold abortWords
  rcases c.contents with _ | (d | a)
  · rfl
  · exact transferWordsDone_eq c d
  · rfl

/-- The record that ABORT leaves in ABORTING, as the claims write it (R24). -/
theorem toAborting_eq (c : Channel) : { c.toAborting with request := none } = { c with
    state := .aborting
    abortWordsDone := some (match c.contents with
      | some (.transfer d) => wordsDone c d
      | _ => 0)
    request := none
    staging := []
    resume := none
    contents := none
    fetchProgress := 0
    fetched := []
    pendingEvent := none } := by
  rw [Channel.toAborting, abortWords_eq]

/-- ABORT as it is taken, before what the channel adds to the event (R24). -/
theorem exec_abort (idle : PortIdle s) (operand : s.command.operandA.toNat = n.val)
    (state : (s.channel n).state = .fetching ∨ (s.channel n).state = .running ∨
      (∃ step, (s.channel n).state = .settling step) ∨ (s.channel n).state = .holding ∨
      (s.channel n).state = .halted) :
    exec .abort s = .next (finishChannelEvent n (enterAborting n (duringCommand .abort s))) := by
  have taken := exec_taken idle .abort (commandCheck_none s .abort n (fun _ => operand)
    (operand_lt operand) (fun r fails => by
      obtain ⟨-, fails⟩ := fails
      rcases state with e | e | ⟨step, e⟩ | e | e <;> simp [e] at fails))
  rw [← channelOfOperand_eq operand]
  exact taken

/-- An ABORTING channel whose transaction is in flight adds nothing to an event (R25). -/
theorem finishChannelEvent_of_aborting (state : (s.channel n).state = .aborting)
    (flight : s.channelInFlight n = true) (request : (s.channel n).request = none) :
    finishChannelEvent n s = finishEvent s :=
  AtRest.finishChannelEvent_of_not_due
    { settling := resumedStep_of_state s n (by simp [state])
      halting := leaveHaltingDue_of_state s n (by simp [state])
      aborting := leaveAbortingDue_eq_false (.inr (.inl flight))
      block := completedBlock_of_state s n (by simp [state]) }
    (by simp [requestDue, request])

/-- Settles O17: the ABORTING channel waits for its transaction, or leaves on the same event. -/
theorem abortTaken : Obligations.AbortTaken := by
  intro s n quiet idle operand state aborting entered
  have entry : enterAborting n (duringCommand .abort s) = aborting := by
    rw [enterAborting_eq, channel_duringCommand, toAborting_eq, entered]
    rfl
  have record : aborting.channel n = { (s.channel n).toAborting with request := none } := by
    rw [← entry, enterAborting_eq]
    exact State.channel_putChannel_self (duringCommand .abort s) n _
  have flying : aborting.channelInFlight n = s.channelInFlight n :=
    channelInFlight_of_abandonedPort s n n (by rw [entered])
  rw [exec_abort idle operand state, entry]
  refine ⟨fun flight => ?_, fun flight => ?_⟩
  · rw [finishChannelEvent_of_aborting (by rw [record]; rfl) (flying.trans flight) (by rw [record])]
  · exact finishChannelEvent_of_leaveAborting
      (leaveAbortingDue_eq_true (by rw [record]; rfl) (flying.trans flight) (by rw [record]; rfl))

/-! ### READ CHANNEL, READ ENTRY and PROBE (R28, R93, R94) -/

theorem faultCode_eq (c : Channel) : faultCode c =
    match c.fault with
    | none => 0#4
    | some (.unlogged r) => r.kind.code.setWidth 4
    | some (.logged k) => k.code.setWidth 4 := by
  unfold faultCode
  rcases c.fault with _ | (r | k) <;> rfl

theorem shownSet_eq (c : Channel) : shownSet c =
    match c.mapSet with
    | none => 0#3
    | some m => BitVec.ofNat 3 m.val := by
  unfold shownSet
  rcases c.mapSet with _ | m
  · rfl
  · simp

theorem setStateBit_eq (x : SetState) : setStateBit x = (x == .loading) := by
  cases x <;> rfl

/-- The code of a failed check stands in the low four bits of RESULT 0 (R94). -/
theorem faultKindWord_eq (k : FaultKind) : field (k.code.setWidth 4) 0 = 0#24 ++ k.code := by
  cases k <;> rfl

theorem exec_readChannel (idle : PortIdle s) (operand : s.command.operandA.toNat = n.val) :
    exec .readChannel s = .next (refreshInterrupts (afterCommand 0x08 .ok
      (channelResult0 (s.channel n)) (channelResult1 (s.channel n)) (channelResult2 (s.channel n)) s)) := by
  have taken := exec_taken idle .readChannel
    (commandCheck_none_of_legal s _ (.inl rfl) (operand_lt operand))
  rw [← channelOfOperand_eq operand]
  exact taken

theorem exec_readEntry (idle : PortIdle s) {m : SetNo} {p : PageNo}
    (set : s.command.operandA.toNat = m.val) (page : s.command.operandB.toNat = p.val) :
    exec .readEntry s = .next (refreshInterrupts (afterCommand 0x12 .ok
      (imageOfEntry ((s.mapSet m).entry p)) (entryResult1 (s.mapSet m)) 0 s)) := by
  have taken := exec_taken idle .readEntry
    (commandCheck_none_of_legal s _ (by simp) ⟨set ▸ m.isLt, by rw [page]; omega⟩)
  rw [← setOfOperand_eq set, ← pageOfOperand_eq page]
  exact taken

theorem exec_probe (idle : PortIdle s) {m : SetNo} {a : Access}
    (set : s.command.operandA.toNat = m.val) (logical : s.command.operandB.toNat ≤ 262143)
    (access : s.command.operandC = 1 ∧ a = .read ∨ s.command.operandC = 2 ∧ a = .write)
    {r : Word × Word}
    (found : probeResults (translateAccess (s.mapSet m) (s.command.operandB.setWidth 19) a) = r) :
    exec .probe s = .next (refreshInterrupts (afterCommand 0x13 .ok r.1 r.2 0 s)) := by
  have named : accessOfOperand s.command.operandC = a ∧
      (s.command.operandC.toNat = 1 ∨ s.command.operandC.toNat = 2) := by
    rcases access with ⟨c, rfl⟩ | ⟨c, rfl⟩ <;> rw [c] <;> decide
  have taken := exec_taken idle .probe
    (commandCheck_none_of_legal s _ (by simp) ⟨set ▸ m.isLt, logical, named.2⟩)
  rw [← found, ← named.1, ← setOfOperand_eq set]
  exact taken

/-- Settles O19: the results are the fields of R176 and R180 side by side. -/
theorem reportingCommands : Obligations.ReportingCommands := by
  intro s idle
  refine ⟨fun n operand => ?_, fun m p set page => ?_, fun m a set logical access =>
    ⟨fun p addr passes => ?_, fun k fails => ?_⟩⟩
  · rw [exec_readChannel idle operand, channelResult0_eq, channelResult1_eq, channelResult2,
      addressWord_eq, faultCode_eq, shownSet_eq]
    rfl
  · rw [exec_readEntry idle set page, imageOfEntry_eq, entryResult1_eq, setStateBit_eq]
  · rw [exec_probe idle set logical access (congrArg probeResults passes), probeResults, addressWord_eq]
  · rw [exec_probe idle set logical access (congrArg probeResults fails), probeResults, faultKindWord_eq]

end Sys2Proof.Machine
end

section
/-! SUPPORT. Requests turned away (O25), and the completions of the channels' transactions (O33 to O35). -/

namespace Sys2Proof.Machine

-- The proofs are elaborated in turn: side by side their threads outgrow the check's memory limit.
set_option Elab.async false

variable {s : State} {n : ChannelNo}

@[simp] theorem channel_raiseLines (s : State) (n m : ChannelNo) (r : LinkRequest) :
    (raiseLines n r s).channel m = s.channel m := rfl

/-! ### A request on a free slot (R50, R51) -/

/-- On a free slot every request is presented on its arrival. -/
theorem exec_requestInstr (free : FreeSlot s n) (r : LinkRequest) :
    exec (requestInstr n r) s = .next (finishEvent (present n r (raiseLines n r s))) := by
  obtain ⟨down, none⟩ := free
  have arrives : ∀ q, arrive n q s = present n q (raiseLines n q s) := fun q => by
    simp only [arrive, down, none, Option.isSome_none, Bool.false_eq_true, if_false]
  have fails : arriveFail n s = present n .fail (raiseLines n .fail s) := by
    simp only [arriveFail, down, Bool.false_eq_true, if_false]
  cases r with
  | fail => exact congrArg (Host.Outcome.next ∘ finishEvent) fails
  | offer | ask | endBlock => exact congrArg (Host.Outcome.next ∘ finishEvent) (arrives _)

/-- In a state that answers every request, meeting one turns it away (R53, R54). -/
theorem meetRequest_of_answering (h : answersAtOnce (s.channel n).state = true) :
    meetRequest n s = turnAway n s := by
  unfold meetRequest
  dsimp only
  cases request : (s.channel n).request with
  | none => simp [turnAway, request]
  | some r =>
    cases state : (s.channel n).state with
    | disabled | idle | aborting | faulted => rfl
    | fetching | running | settling _ | holding | halting | halted =>
      rw [state] at h
      cases h

/-- A state that answers every request has no block and no settling sequence, and is not HALTING. -/
theorem AtRest.of_answering (h : answersAtOnce (s.channel n).state = true)
    (aborting : leaveAbortingDue s n = false) : AtRest s n where
  settling := resumedStep_of_state s n fun step e => by simp [e, answersAtOnce] at h
  halting := leaveHaltingDue_of_state s n fun e => by simp [e, answersAtOnce] at h
  aborting := aborting
  block := completedBlock_of_state s n fun e => by simp [e, answersAtOnce] at h

/-- A request that has arrived in a state that answers every request is turned away (R53, R54). -/
theorem carryOn_answering (h : answersAtOnce (s.channel n).state = true)
    (aborting : leaveAbortingDue s n = false) : carryOn n s = turnAway n s := by
  have rest := AtRest.of_answering h aborting
  have after : completedBlock (turnAway n s) n = none :=
    completedBlock_of_state _ n fun e => by
      rw [← state_turnAway, e] at h
      cases h
  rw [carryOn_of_no_transition rest.settling rest.halting rest.aborting,
    completeBlock_of_none _ _ rest.block, meetRequest_of_answering h, completeBlock_of_none _ _ after,
    meetRequest_of_none (by simp)]

/-- Settles O25: in a state that answers every request, the one that arrives is turned away at once. -/
theorem requestsTurnedAway : Obligations.RequestsTurnedAway := by
  intro s n r quiet free state
  have answers : answersAtOnce (s.channel n).state = true := by
    rcases state with e | e | e | e <;> rw [e] <;> rfl
  have arrived : present n r (raiseLines n r s) = turnAway n ((raiseLines n r s).putChannel n
      { s.channel n with request := some r }) :=
    carryOn_answering (by simpa using answers) (by
      simpa [leaveAbortingDue, raiseLines] using quiet.aborting n)
  have record : ({ s.channel n with request := none } : Channel) = s.channel n := by rw [← free.2]
  rw [exec_requestInstr free r, arrived, turnAway_eq]
  cases r <;> simp [raiseLines, record, turnedAwaySlot, answeredSlot]

/-! ### Descriptor reads (R19, R34) -/

/-- A descriptor read to be delivered completes (R34, R106). -/
theorem exec_descReadComplete {a : PhysAddr} (r : BusRead)
    (flight : s.port.inFlight = some { purpose := .descRead n, address := a, delivery := .deliver }) :
    exec (.descReadComplete r) s =
      .next (finishChannelEvent n (deliverDescRead n r (freePort s))) := by
  show Host.Outcome.next (completeDescRead r s) = _
  simp only [completeDescRead, flight]
  rfl

/-- A channel just FAULTED adds nothing to an event (R53, R54). -/
theorem finishChannelEvent_enterFaulted (s : State) (n : ChannelNo) (k : FaultKind) :
    finishChannelEvent n (enterFaulted n k s) = finishEvent (enterFaulted n k s) := by
  rw [finishChannelEvent, carryOn_of_answering _ n] <;> simp [channel_enterFaulted, faultedChannel]

theorem deliverDescRead_busError
    (state : (s.channel n).state = .fetching ∨ (s.channel n).state = .halting) :
    deliverDescRead n .busError s = enterFaulted n .busError s := by
  rcases state with e | e <;> simp only [deliverDescRead, e]

theorem deliverDescRead_fetching (w : Word) (state : (s.channel n).state = .fetching) :
    deliverDescRead n (.ok w) s = descWordArrives n w s := by
  simp only [deliverDescRead, state]

theorem deliverDescRead_halting (w : Word) (state : (s.channel n).state = .halting) :
    deliverDescRead n (.ok w) s = keepDescWord n w s := by
  simp only [deliverDescRead, state]

/-- Before word 3 a word is only kept (R34). -/
theorem descWordArrives_of_lt (w : Word) (early : (s.channel n).fetchProgress < 3) :
    descWordArrives n w s = keepDescWord n w s := by
  have more : (s.channel n).fetchProgress + 1 ≠ 4 := by
    generalize (s.channel n).fetchProgress = x at early
    revert x
    decide
  exact if_neg (by simpa [keepDescWord] using more)

/-- Settles O33: a word is kept in FETCHING and in HALTING, and a bus error faults the channel. -/
theorem descriptorWordKept : Obligations.DescriptorWordKept := by
  rintro s n a w quiet flight kept e
  have keeps : keepDescWord n w (freePort s) = kept := by rw [e]; rfl
  have record : kept.channel n = { s.channel n with
      fetchProgress := (s.channel n).fetchProgress + 1
      fetched := (s.channel n).fetched ++ [w] } := by
    rw [← keeps]
    exact State.channel_putChannel_self (freePort s) n _
  have request : (kept.channel n).request ≠ some .fail := by
    rw [record]
    exact quiet.no_fail n
  rw [exec_descReadComplete _ flight, exec_descReadComplete _ flight]
  refine ⟨fun state early => ?_, fun state full => ?_, fun state empty => ?_, fun state => ?_⟩
  · rw [deliverDescRead_fetching (s := freePort s) w state,
      descWordArrives_of_lt (s := freePort s) w early, keeps, finishChannelEvent,
      carryOn_of_waiting _ n (.inl (by rw [record, ← state])) request]
  · rw [deliverDescRead_halting (s := freePort s) w state, keeps,
      finishChannelEvent_of_halting (by rw [record, ← state])
      (.inr (by rw [record]; exact full)) request]
  · rw [deliverDescRead_halting (s := freePort s) w state, keeps]
    exact finishChannelEvent_of_leaveHalting
      (leaveHaltingDue_eq_true (by rw [record, ← state]) (by rw [← keeps]; rfl) (by rw [record, ← empty]))
  · rw [deliverDescRead_busError (s := freePort s) state, finishChannelEvent_enterFaulted]
    rfl

/-! ### The arrival of word 3 (R34 to R40) -/

/-- A descriptor with a count of 0 is no transfer descriptor (R30). -/
theorem linkOnlyContents_ne_transfer (w0 w1 w2 : Word) (d : Transfer) :
    linkOnlyContents w0 w1 w2 ≠ some (.transfer d) := by
  unfold linkOnlyContents
  split <;> simp

/-- The count of a transfer descriptor stands in word 0 (R179). -/
theorem transferContents_count {w0 w1 w2 w3 : Word} {d : Transfer}
    (h : transferContents w0 w1 w2 w3 = some (.transfer d)) : d.count = w0.extractLsb' 16 16 := by
  unfold transferContents at h
  dsimp only at h
  split at h
  · simp at h
  · split at h
    · simp at h
    · simp only [Option.some.injEq, Contents.transfer.injEq] at h
      rw [← h]

/-- A transfer descriptor has a count (R30). -/
theorem validateDescriptor_transfer {w0 w1 w2 w3 : Word} {d : Transfer}
    (h : validateDescriptor [w0, w1, w2, w3] = some (.transfer d)) : d.count ≠ 0 := by
  simp only [validateDescriptor] at h
  split at h
  · exact absurd h (linkOnlyContents_ne_transfer _ _ _ _)
  · next count =>
    rw [transferContents_count h]
    exact count

/-- After word 3 the four words are validated (R34). -/
theorem descWordArrives_of_last {w0 w1 w2 : Word} (w3 : Word)
    (last : (s.channel n).fetchProgress = 3) (fetched : (s.channel n).fetched = [w0, w1, w2]) :
    descWordArrives n w3 s = acceptDescriptor n [w0, w1, w2, w3]
      (s.putChannel n { s.channel n with fetchProgress := 4, fetched := [] }) := by
  simp [descWordArrives, keepDescWord, dropFetched, last, fetched]

/-- A block just begun is not complete (R69). -/
theorem completedBlock_of_new {d : Transfer} (held : (s.channel n).contents = some (.transfer d))
    (count : d.count ≠ 0) (exchanged : (s.channel n).exchanged = 0)
    (memoryCount : (s.channel n).memoryCount = 0) (short : (s.channel n).short = false) :
    completedBlock s n = none := by
  by_cases running : (s.channel n).state = .running
  · have more : completionHolds (s.channel n) d (s.channelInFlight n) = false := by
      have zero : ((0 : BitVec 16) == d.count) = false := by simpa using Ne.symm count
      unfold completionHolds
      cases d.direction <;>
        simp only [exchanged, memoryCount, short, zero, Bool.false_and, Bool.or_false, Bool.and_false]
    rw [completedBlock_running s n d running held, more]
    rfl
  · exact completedBlock_of_state s n running

/-- A channel that has accepted a transfer descriptor is at rest but for the request that stands (R6). -/
theorem acceptTransfer_atRest (s : State) (n : ChannelNo) {d : Transfer} (count : d.count ≠ 0) :
    AtRest (acceptTransfer n d s) n where
  settling := resumedStep_of_state _ n (by simp [acceptTransfer])
  halting := leaveHaltingDue_of_state _ n (by simp [acceptTransfer])
  aborting := leaveAbortingDue_of_state _ n (by simp [acceptTransfer])
  block := completedBlock_of_new (d := d) (by simp [acceptTransfer]) count (by simp [acceptTransfer])
    (by simp [acceptTransfer]) (by simp [acceptTransfer])

/-- At a channel at rest the event goes on as the row of the standing request does (R52). -/
theorem AtRest.finishChannelEvent_eq (rest : AtRest s n) (request : (s.channel n).request ≠ none) :
    .next (finishChannelEvent n s) = exec (.waitingRequestMet n) s := by
  cases due : requestDue (s.channel n) with
  | true => exact rest.finishChannelEvent_of_due due
  | false =>
    rw [exec_waitingRequestMet (Option.isSome_iff_ne_none.mpr request), meetRequest_of_not_due s n due]

theorem AtRest.finishChannelEvent_of_none (rest : AtRest s n) (request : (s.channel n).request = none) :
    finishChannelEvent n s = finishEvent s :=
  rest.finishChannelEvent_of_not_due (by simp [requestDue, request])

/-- A link followed from the record `c`, to a multiple of 4 or not (R39). -/
theorem followLink_putChannel (s : State) (n : ChannelNo) (c : Channel) (addr : PhysAddr) :
    followLink n addr (s.putChannel n c) =
      if addr.toNat % 4 = 0 then
        s.putChannel n { c with
          state := .fetching
          descAddr := addr
          fetchProgress := 0
          fetched := []
          contents := none }
      else enterFaulted n .descFormat (s.putChannel n { c with descAddr := addr }) := by
  simp only [followLink, aligned4_iff, enterFetching, State.channel_putChannel_self,
    State.putChannel_putChannel]

/-- A link-only descriptor below the run limit raises the run, and its link is followed (R6, R39, R40). -/
theorem acceptLinkOnly_of_lt {words : List Word} {link : PhysAddr} {c : Channel}
    (valid : validateDescriptor words = some (.linkOnly link)) (below : c.linkOnlyRun < 12) :
    acceptDescriptor n words (s.putChannel n c) =
      if link.toNat % 4 = 0 then
        s.putChannel n { c with
          state := .fetching
          descAddr := link
          fetchProgress := 0
          fetched := []
          contents := none
          linkOnlyRun := c.linkOnlyRun + 1 }
      else enterFaulted n .descFormat (s.putChannel n { c with
        descAddr := link
        contents := some (.linkOnly link)
        linkOnlyRun := c.linkOnlyRun + 1 }) := by
  simp only [acceptDescriptor, valid, acceptLinkOnly, State.channel_putChannel_self,
    State.putChannel_putChannel, Config.linkOnlyLimit, below, if_true, followLink_putChannel]

/-- A link-only descriptor at the run limit faults the channel with CHAIN-LIMIT (R40). -/
theorem acceptLinkOnly_of_limit {words : List Word} {link : PhysAddr} {c : Channel}
    (valid : validateDescriptor words = some (.linkOnly link)) (limit : c.linkOnlyRun = 12) :
    acceptDescriptor n words (s.putChannel n c) =
      enterFaulted n .chainLimit (s.putChannel n { c with contents := some (.linkOnly link) }) := by
  have reached : ¬ c.linkOnlyRun < Config.linkOnlyLimit := by rw [limit]; decide
  simp only [acceptDescriptor, valid, acceptLinkOnly, State.channel_putChannel_self,
    State.putChannel_putChannel, reached, if_false]

/-- Settles O34: the branches of validation and of the run check. -/
theorem descriptorAccepted : Obligations.DescriptorAccepted := by
  rintro s n a w0 w1 w2 w3 quiet flight fetching last fetched c e
  have arrives : exec (.descReadComplete (.ok w3)) s = .next (finishChannelEvent n
      (acceptDescriptor n [w0, w1, w2, w3] ((freePort s).putChannel n c))) := by
    rw [exec_descReadComplete _ flight, deliverDescRead_fetching (s := freePort s) w3 fetching,
      descWordArrives_of_last (s := freePort s) w3 last fetched, e]
    rfl
  have request : c.request = (s.channel n).request := by rw [e]
  rw [arrives]
  refine ⟨fun d valid running begun => ?_, fun link valid below => ⟨fun aligned => ?_, fun unaligned => ?_⟩,
    fun link valid limit => ?_, fun invalid => ?_⟩
  · have accepted : acceptDescriptor n [w0, w1, w2, w3] ((freePort s).putChannel n c) =
        acceptTransfer n d ((freePort s).putChannel n c) := by
      simp only [acceptDescriptor, valid]
    have begins : acceptTransfer n d ((freePort s).putChannel n c) = running := by
      rw [begun, acceptTransfer, State.putChannel_putChannel, State.channel_putChannel_self]
      rfl
    have rest := acceptTransfer_atRest ((freePort s).putChannel n c) n (validateDescriptor_transfer valid)
    rw [begins] at rest
    have standing : (running.channel n).request = (s.channel n).request := by
      rw [← begins, ← request]
      simp [acceptTransfer]
    rw [accepted, begins]
    exact ⟨fun none => by rw [rest.finishChannelEvent_of_none (standing.trans none)],
      fun some => rest.finishChannelEvent_eq (standing.trans_ne some)⟩
  · have follows : acceptDescriptor n [w0, w1, w2, w3] ((freePort s).putChannel n c) =
        (freePort s).putChannel n { c with
          state := .fetching
          descAddr := link
          fetchProgress := 0
          contents := none
          linkOnlyRun := c.linkOnlyRun + 1 } := by
      rw [acceptLinkOnly_of_lt valid below, if_pos aligned, e]
    rw [follows, quiet.finishChannelEvent_waiting (by simp) (by simpa using request)]
    rfl
  · rw [acceptLinkOnly_of_lt valid below, if_neg unaligned, finishChannelEvent_enterFaulted]
    rfl
  · rw [acceptLinkOnly_of_limit valid limit, finishChannelEvent_enterFaulted]
    rfl
  · have faulted : acceptDescriptor n [w0, w1, w2, w3] ((freePort s).putChannel n c) =
        enterFaulted n .descFormat ((freePort s).putChannel n c) := by
      simp only [acceptDescriptor, invalid]
    rw [faulted, finishChannelEvent_enterFaulted]
    rfl

/-! ### Data transactions (R59, R60, R62) -/

theorem takesData_of_state (h : (s.channel n).state = .running ∨ (s.channel n).state = .halting) :
    takesData (s.channel n).state = true := by
  rcases h with e | e <;> rw [e] <;> rfl

/-- A data write to be delivered completes (R59, R60, R82). -/
theorem exec_dataWriteComplete {m : SetNo} {p : PageNo} {x : Word} {a : PhysAddr}
    (r : BusWrite) (flight : s.port.inFlight =
      some { purpose := .dataWrite n m p x, address := a, delivery := .deliver }) :
    exec (.dataWriteComplete r) s = .next (finishChannelEvent n (deliverDataWrite n r
      (if r = .ok then setModified m p (freePort s) else freePort s))) := by
  show Host.Outcome.next (completeDataWrite r s) = _
  simp only [completeDataWrite, flight]
  cases r <;> rfl

/-- A data read to be delivered completes (R62). -/
theorem exec_dataReadComplete {m : SetNo} {p : PageNo} {a : PhysAddr}
    (r : BusRead) (flight : s.port.inFlight =
      some { purpose := .dataRead n m p, address := a, delivery := .deliver }) :
    exec (.dataReadComplete r) s =
      .next (finishChannelEvent n (deliverDataRead n r (freePort s))) := by
  show Host.Outcome.next (completeDataRead r s) = _
  simp only [completeDataRead, flight]
  rfl

section Delivered

variable (takes : takesData (s.channel n).state = true)
include takes

theorem deliverDataWrite_ok : deliverDataWrite n .ok s = countWrite n s := if_pos takes

theorem deliverDataWrite_busError : deliverDataWrite n .busError s = enterFaulted n .busError s :=
  if_pos takes

theorem deliverDataRead_ok (w : Word) : deliverDataRead n (.ok w) s = countRead n w s := if_pos takes

theorem deliverDataRead_busError : deliverDataRead n .busError s = enterFaulted n .busError s :=
  if_pos takes

end Delivered

/-- Settles O35: what a data completion counts, before the channel goes on. -/
theorem dataTransactionCompletes : Obligations.DataTransactionCompletes := by
  rintro s n m p a x w state freed rfl
  have takes := takesData_of_state state
  refine ⟨fun flight => ⟨?_, ?_⟩, fun flight => ⟨?_, ?_⟩⟩
  · rw [exec_dataWriteComplete _ flight, if_pos rfl,
      deliverDataWrite_ok (s := setModified m p (freePort s)) takes, List.drop_one]
    rfl
  · rw [exec_dataWriteComplete _ flight, if_neg (by simp), deliverDataWrite_busError (s := freePort s) takes]
    rfl
  · rw [exec_dataReadComplete _ flight, deliverDataRead_ok (s := freePort s) takes]
    rfl
  · rw [exec_dataReadComplete _ flight, deliverDataRead_busError (s := freePort s) takes]
    rfl

end Sys2Proof.Machine
end

section
/-! SUPPORT. The two resets (O2, O3), the reset state (O52), and the reads of the window (O6). -/

namespace Sys2Proof.Machine

-- The proofs are elaborated in turn: side by side their threads outgrow the check's memory limit.
set_option Elab.async false

variable (s : State) (n : ChannelNo)

/-! ### Power-on reset (R2) -/

/-- A request on the raised lines is turned away, unless an answer is up (R2, R53, R54). -/
theorem slotAfterPowerOn_eq (l : Slot) :
    slotAfterPowerOn l = if l.answerValid then l else turnedAwaySlot l l.lines := by
  unfold slotAfterPowerOn turnedAwaySlot
  split
  · rfl
  · cases lines : l.lines with
    | none => rfl
    | some r => cases r <;> rfl

theorem mapSet_of_replicate {t : State} {x : MapSet} (h : t.sets = Vector.replicate 8 x) (m : SetNo) :
    t.mapSet m = x := by
  simp [State.mapSet, h]

/-- Settles O2: each block of the state after RESETIN. -/
theorem powerOnResetValues : Obligations.PowerOnResetValues := by
  intro s
  have sets : ∀ m, (powerOn s).mapSet m = MapSet.reset := mapSet_of_replicate rfl
  refine ⟨powerOn s, rfl, channel_of_replicate rfl, fun n => ?_, fun m => ?_, fun m p => ?_,
    rfl, rfl, rfl, rfl, rfl, rfl, rfl, rfl, rfl, rfl⟩
  · rw [← slotAfterPowerOn_eq]
    exact getElem_mapTable slotAfterPowerOn s.slots n.val n.isLt
  · rw [sets]
    exact ⟨rfl, rfl⟩
  · rw [sets]
    exact MapSet.entry_cleared p _ _

/-! ### Soft reset (R2, R76, R110) -/

/-- Slots replaced one after the other, each from its own pins. -/
theorem slot_foldl_putSlot (f : ChannelNo → Slot → Slot) (l : List ChannelNo) (once : l.Nodup) :
    ∀ t : State, (l.foldl (fun t n => t.putSlot n (f n (t.slot n))) t).slot n =
      if n ∈ l then f n (t.slot n) else t.slot n := by
  induction l with
  | nil => simp
  | cons m rest ih =>
    intro t
    obtain ⟨fresh, once⟩ := List.nodup_cons.mp once
    rw [List.foldl_cons, ih once, State.slot_putSlot]
    by_cases e : n = m
    · simp [e, fresh]
    · simp [e]

/-- Replacing slots changes nothing else. -/
theorem foldl_putSlot_frame (f : ChannelNo → State → Slot) (l : List ChannelNo) :
    ∀ t : State, ∃ v, l.foldl (fun t n => t.putSlot n (f n t)) t = { t with slots := v } := by
  induction l with
  | nil => exact fun t => ⟨t.slots, rfl⟩
  | cons m rest ih =>
    intro t
    obtain ⟨v, h⟩ := ih (t.putSlot m (f m t))
    exact ⟨v, by rw [List.foldl_cons, h]; rfl⟩

theorem slot_softReset : (softReset s).slot n =
    slotAfterSoftReset (s.slot n) (s.channel n).request.isSome := by
  have slots := slot_foldl_putSlot n (fun n l => slotAfterSoftReset l (s.channel n).request.isSome)
    channelNumbers channelNumbers_nodup s
  rw [if_pos (mem_channelNumbers n)] at slots
  exact slots

theorem mapSet_softReset (m : SetNo) : (softReset s).mapSet m = setAfterSoftReset (s.mapSet m) :=
  getElem_mapTable setAfterSoftReset s.sets m.val m.isLt

/-- A soft reset leaves the word last read and the model's own fields (log entry 10). -/
theorem softReset_frame : (softReset s).readData = s.readData ∧ (softReset s).pending = s.pending ∧
    (softReset s).tickDraws = s.tickDraws := by
  obtain ⟨v, slots⟩ := foldl_putSlot_frame
    (fun n t => slotAfterSoftReset (t.slot n) (s.channel n).request.isSome) channelNumbers s
  have kept : softResetSlots s = { s with slots := v } := slots
  unfold softReset
  rw [kept]
  exact ⟨rfl, rfl, rfl⟩

/-- Settles O3: each block of the state after a soft reset. -/
theorem softResetValues : Obligations.SoftResetValues := by
  intro s w
  refine ⟨softReset s, rfl, channel_of_replicate rfl, fun n => ?_, fun m ready => ?_, fun m loading => ?_,
    rfl, rfl, rfl, rfl, rfl, rfl, rfl, rfl, softReset_frame s⟩
  · rw [slot_softReset, slotAfterSoftReset]
    cases request : (s.channel n).request <;> simp
  · rw [mapSet_softReset, setAfterSoftReset, ready]
  · rw [mapSet_softReset, setAfterSoftReset, loading]
    exact ⟨rfl, rfl, fun p => MapSet.entry_cleared p _ _⟩

/-! ### The reset state (R2) -/

theorem channel_reset : State.reset.channel n = Channel.reset := channel_of_replicate rfl n

theorem mapSet_reset (m : SetNo) : State.reset.mapSet m = MapSet.reset := mapSet_of_replicate rfl m

theorem slot_reset : State.reset.slot n = Slot.reset := by
  simp [State.slot, State.reset]

theorem queueInv_reset : QueueInv State.reset where
  depth := by decide
  once := by decide
  waiting n := by
    rw [channel_reset]
    exact iff_of_false (fun h => nomatch h) Bool.noConfusion
  full h := absurd rfl h

theorem logInv_reset : LogInv State.reset := by
  constructor <;> decide

theorem busyInv_reset : BusyInv State.reset where
  waits l h := nomatch h
  halting n h := by
    rw [channel_reset] at h
    cases h
  aborting n h := by
    rw [channel_reset] at h
    cases h
  loading h := nomatch h

theorem setsInv_reset : SetsInv State.reset where
  limit m := by
    rw [mapSet_reset]
    decide
  loading m h := by
    rw [mapSet_reset] at h
    cases h
  loader l h := nomatch h
  beside t h := nomatch h
  command h := nomatch h
  writeEntry l h := nomatch h
  beyond m p _ _ := by
    rw [mapSet_reset]
    exact congrArg PageEntry.valid (MapSet.entry_cleared p _ _)
  cleared l p h := nomatch h

theorem interruptInv_reset : InterruptInv State.reset := by
  constructor <;> decide

theorem slotInv_reset : SlotInv State.reset where
  answer n h := by
    rw [slot_reset] at h
    cases h
  early n h := by
    rw [slot_reset] at h
    cases h
  none n _ := by
    rw [channel_reset]
    rfl
  fail n := by
    rw [channel_reset]
    exact fun h => nomatch h

theorem stallInv_reset : StallInv State.reset where
  bound n := by
    rw [channel_reset]
    decide
  running n h := by
    rw [channel_reset] at h
    cases h

theorem fetchInv_reset : FetchInv State.reset where
  words n h := by
    rw [channel_reset] at h
    cases h
  progress n h := by
    rw [channel_reset] at h
    cases h
  aligned n h := by
    rw [channel_reset] at h
    cases h
  run n := by
    rw [channel_reset]
    decide

theorem rangeInv_reset : RangeInv State.reset := by
  constructor <;> decide

/-- Settles O52: the invariants one by one. -/
theorem resetMeetsInvariants : Obligations.ResetMeetsInvariants :=
  ⟨queueInv_reset, .of_reset channel_reset rfl, logInv_reset, accountInv_of_check _ (by decide),
    busyInv_reset, setsInv_reset, interruptInv_reset, slotInv_reset, stallInv_reset, fetchInv_reset,
    rangeInv_reset, nothingDue_of_check _ (by decide)⟩

/-! ### Words made of bits and fields (R175) -/

/-- A bit of a word put together from parts. -/
theorem getLsbD_foldl_or {α : Type} (g : α → Word) (l : List α) (i : Nat) : ∀ w : Word,
    (l.foldl (fun w x => w ||| g x) w).getLsbD i = (w.getLsbD i || l.any fun x => (g x).getLsbD i) := by
  induction l with
  | nil => simp
  | cons x rest ih =>
    intro w
    rw [List.foldl_cons, ih, BitVec.getLsbD_or, List.any_cons, Bool.or_assoc]

/-- A word that holds one bit for each of `k` numbers (R13, R95). -/
theorem getLsbD_bits {k : Nat} (f : Fin k → Bool) (l : List (Fin k)) {i : Nat} (h : i < 32) :
    (l.foldl (fun w n => w ||| bitField (f n) n.val) 0).getLsbD i =
      l.any fun n => decide (i = n.val) && f n := by
  rw [getLsbD_foldl_or]
  simp only [getLsbD_bitField _ _ _ h, BitVec.ofNat_eq_ofNat, BitVec.getLsbD_zero, Bool.false_or]

/-- The bit of a number in the list is its own. -/
theorem getLsbD_bits_of_mem {k : Nat} (f : Fin k → Bool) {l : List (Fin k)} {n : Fin k} (mem : n ∈ l)
    (h : n.val < 32) :
    (l.foldl (fun w n => w ||| bitField (f n) n.val) 0).getLsbD n.val = f n := by
  rw [getLsbD_bits f l h, Bool.eq_iff_iff, List.any_eq_true]
  constructor
  · rintro ⟨m, -, found⟩
    simp only [Bool.and_eq_true, decide_eq_true_eq] at found
    rw [Fin.ext found.1]
    exact found.2
  · exact fun set => ⟨n, mem, by simpa using set⟩

/-- The bits beyond the numbers are 0. -/
theorem extractLsb'_bits_beyond {k : Nat} (f : Fin k → Bool) (l : List (Fin k)) (w : Nat)
    (h : k + w = 32) :
    (l.foldl (fun w n => w ||| bitField (f n) n.val) 0).extractLsb' k w = 0 := by
  apply BitVec.eq_of_getLsbD_eq
  intro i hi
  have none : (l.any fun n => decide (k + i = n.val) && f n) = false := by
    rw [List.any_eq_false]
    intro n _
    simp [show k + i ≠ n.val by omega]
  rw [BitVec.getLsbD_extractLsb', getLsbD_bits f l (by omega), none]
  simp

/-- A word that holds four bits for each of the eight channels from `first` up (R4, R175). -/
theorem extractLsb'_nibbles (f : ChannelNo → BitVec 4) (l : List ChannelNo) (first : Nat)
    (within : ∀ m ∈ l, first ≤ m.val ∧ m.val < first + 8) {n : ChannelNo} (mem : n ∈ l)
    (aligned : first % 8 = 0) :
    (l.foldl (fun w n => w ||| field (f n) (4 * (n.val % 8))) 0).extractLsb' (4 * (n.val - first)) 4 =
      f n := by
  apply BitVec.eq_of_getLsbD_eq
  intro i hi
  have bounds := within n mem
  rw [BitVec.getLsbD_extractLsb', getLsbD_foldl_or, Bool.eq_iff_iff]
  simp only [hi, decide_true, Bool.true_and, BitVec.ofNat_eq_ofNat, BitVec.getLsbD_zero, Bool.false_or,
    List.any_eq_true]
  constructor
  · rintro ⟨m, hm, set⟩
    have other := within m hm
    rw [getLsbD_field _ _ _ (by omega), Bool.and_eq_true, decide_eq_true_eq] at set
    have near := BitVec.lt_of_getLsbD set.2
    have same : m = n := Fin.ext (by omega)
    rw [same, show 4 * (n.val - first) + i - 4 * (n.val % 8) = i by omega] at set
    exact set.2
  · intro set
    refine ⟨n, mem, ?_⟩
    rw [getLsbD_field _ _ _ (by omega), show 4 * (n.val - first) + i - 4 * (n.val % 8) = i by omega, set]
    simp only [Bool.and_true, decide_eq_true_eq]
    omega

/-! ### What a read of the window returns (R171 to R178) -/

theorem windowRead_beyond (offset : BitVec 5) (h : 23 ≤ offset.toNat) : windowRead s offset = 0 := by
  obtain ⟨k, e⟩ := Nat.exists_eq_add_of_le' h
  unfold windowRead
  rw [e]
  rfl

theorem eventWords_of_empty (h : s.queue.records = []) :
    windowRead s 12 = 0 ∧ windowRead s 13 = 0 := by
  constructor
  · show eventWord0 s.queue = 0
    simp only [eventWord0, h]
  · show eventWord1 s.queue = 0
    simp only [eventWord1, h]

theorem eventWords_of_head (r : EventRecord) (rest : List EventRecord) (h : s.queue.records = r :: rest) :
    windowRead s 12 = r.kind.code ++ BitVec.ofNat 4 r.channel.val ++ r.descAddr ∧
      windowRead s 13 = r.stamp ++ r.wordsDone := by
  constructor
  · show eventWord0 s.queue = _
    simp only [eventWord0, h]
    exact r.word0_eq
  · show eventWord1 s.queue = _
    simp only [eventWord1, h]
    exact r.word1_eq

/-- Settles O6: each register by the law of its word. -/
theorem windowReads : Obligations.WindowReads := by
  intro s
  refine ⟨rfl, controlWord_eq s.control, interruptWord_eq s.interrupts, fun n => ?_, ?_,
    lastCodeWord_eq _, rfl, rfl, rfl, commandStatusWord_eq s.command, rfl, rfl, rfl,
    eventWords_of_empty s, eventWords_of_head s, eventStatusWord_eq s.queue, eventSettingsWord_eq s.queue,
    logStatusWord_eq s.log, logPositionWord_eq s.log, halfWord_eq _, halfWord_eq _, fun n low => ?_,
    fun n high => ?_, fun m => ?_, ?_, windowRead_beyond s, ?_, fun _ => rfl, rfl, rfl, rfl, rfl, rfl, rfl, rfl⟩
  · exact getLsbD_bits_of_mem (fun n => (s.channel n).state == .faulted) (mem_channelNumbers n) (by omega)
  · exact extractLsb'_bits_beyond (fun n => (s.channel n).state == .faulted) channelNumbers 16 rfl
  · exact extractLsb'_nibbles (fun n => (s.channel n).state.code) [0, 1, 2, 3, 4, 5, 6, 7] 0 (by decide)
      (by revert n; decide) rfl
  · exact extractLsb'_nibbles (fun n => (s.channel n).state.code) [8, 9, 10, 11, 12, 13, 14, 15] 8
      (by decide) (by revert n; decide) rfl
  · rw [← setStateBit_eq]
    exact getLsbD_bits_of_mem (fun m => setStateBit (s.mapSet m).state) (by revert m; decide) (by omega)
  · exact extractLsb'_bits_beyond (fun m => setStateBit (s.mapSet m).state) setNumbers 24 rfl
  · rw [busRequest, Option.isSome_iff_ne_none]

end Sys2Proof.Machine
end

section
/-! SUPPORT. The checks of descriptor validation (O42), and the steps of the settling sequence (O49). -/

namespace Sys2Proof.Machine

-- The proofs are elaborated in turn: side by side their threads outgrow the check's memory limit.
set_option Elab.async false

/-! ### The fields of a descriptor (R179) -/

/-- The bits of a word from bit `low` up are all 0 where the word is below 2^low. -/
theorem extractLsb'_top_eq_zero (w : Word) {low len : Nat} (h : low + len = 32) :
    w.extractLsb' low len = 0 ↔ w.toNat < 2 ^ low := by
  have width : w.toNat < 2 ^ low * 2 ^ len := by
    rw [← Nat.pow_add, h]
    exact w.isLt
  rw [← BitVec.toNat_inj, BitVec.extractLsb'_toNat, Nat.shiftRight_eq_div_pow,
    Nat.mod_eq_of_lt (Nat.div_lt_of_lt_mul width)]
  simp [Nat.div_eq_zero_iff]

theorem count_eq_zero (w0 : Word) : w0.extractLsb' 16 16 = 0 ↔ w0.toNat / 65536 = 0 := by
  rw [extractLsb'_top_eq_zero w0 rfl]
  omega

theorem linkOutOfRange_iff (w : Word) : linkOutOfRange w = true ↔ 2 ^ 24 ≤ w.toNat := by
  rw [linkOutOfRange, bne_iff_ne, ne_eq, extractLsb'_top_eq_zero w rfl, Nat.not_lt]

theorem unusedBitsSet_iff (w0 w1 : Word) :
    unusedBitsSet w0 w1 = true ↔ w0.extractLsb' 4 10 ≠ 0 ∨ 2 ^ 18 ≤ w1.toNat := by
  rw [unusedBitsSet, Bool.or_eq_true, bne_iff_ne, bne_iff_ne, ne_eq (w1.extractLsb' 18 14),
    extractLsb'_top_eq_zero w1 rfl, Nat.not_lt]

theorem directionOfCode_eq_none (x : BitVec 2) : directionOfCode x = none ↔ x ≠ 1 ∧ x ≠ 2 := by
  revert x
  decide

theorem directionOfCode_eq_some {x : BitVec 2} {d : Direction} (h : directionOfCode x = some d) :
    d = if x = 1 then .inbound else .outbound := by
  have named : ∀ x, directionOfCode x = none ∨
      directionOfCode x = some (if x = 1 then .inbound else .outbound) := by decide
  rcases named x with e | e <;> rw [e] at h
  · cases h
  · exact (Option.some.inj h).symm

/-! ### The two kinds of descriptor (R30, R36) -/

theorem validateDescriptor_linkOnly {w0 : Word} (h : w0.toNat / 65536 = 0) (w1 w2 w3 : Word) :
    validateDescriptor [w0, w1, w2, w3] = linkOnlyContents w0 w1 w2 :=
  if_pos ((count_eq_zero w0).mpr h)

theorem validateDescriptor_of_count {w0 : Word} (h : w0.toNat / 65536 ≠ 0) (w1 w2 w3 : Word) :
    validateDescriptor [w0, w1, w2, w3] = transferContents w0 w1 w2 w3 :=
  if_neg (mt (count_eq_zero w0).mp h)

theorem linkOnlyContents_eq_none (w0 w1 w2 : Word) : linkOnlyContents w0 w1 w2 = none ↔
    w0.getLsbD 3 = true ∨ w0.extractLsb' 4 10 ≠ 0 ∨ 2 ^ 18 ≤ w1.toNat ∨ 2 ^ 24 ≤ w2.toNat := by
  rw [linkOnlyContents, ite_eq_left_iff]
  simp only [Bool.or_eq_true, unusedBitsSet_iff, linkOutOfRange_iff, reduceCtorEq, imp_false, not_not]
  tauto

theorem linkOnlyContents_eq_some {w0 w1 w2 : Word} {x : Contents}
    (h : linkOnlyContents w0 w1 w2 = some x) : x = .linkOnly (w2.extractLsb' 0 24) := by
  unfold linkOnlyContents at h
  split at h
  · cases h
  · rw [← BitVec.setWidth_eq_extractLsb' (by decide), ← Option.some.inj h]

theorem transferContents_eq_none (w0 w1 w2 w3 : Word) : transferContents w0 w1 w2 w3 = none ↔
    (w0.extractLsb' 14 2 ≠ 1 ∧ w0.extractLsb' 14 2 ≠ 2) ∨ w0.extractLsb' 4 10 ≠ 0 ∨
      2 ^ 18 ≤ w1.toNat ∨ (w0.getLsbD 3 = false ∧ 2 ^ 24 ≤ w2.toNat) ∨
      (w0.getLsbD 2 = true ∧ 2 ^ 24 ≤ w3.toNat) := by
  rw [← directionOfCode_eq_none]
  unfold transferContents
  cases directionOfCode (w0.extractLsb' 14 2) with
  | none => simp
  | some d =>
    dsimp only
    rw [ite_eq_left_iff]
    simp only [Bool.or_eq_true, Bool.and_eq_true, Bool.not_eq_true', unusedBitsSet_iff, linkOutOfRange_iff,
      reduceCtorEq, imp_false, not_not, false_or]
    tauto

theorem transferContents_eq_some {w0 w1 w2 w3 : Word} {x : Contents}
    (h : transferContents w0 w1 w2 w3 = some x) : x = .transfer
      { count := w0.extractLsb' 16 16
        direction := if w0.extractLsb' 14 2 = 1 then .inbound else .outbound
        start := w1.extractLsb' 0 18
        notify := w0.getLsbD 0
        hold := w0.getLsbD 1
        link := if w0.getLsbD 3 then none else some (w2.extractLsb' 0 24)
        altLink := if w0.getLsbD 2 then some (w3.extractLsb' 0 24) else none } := by
  have low : ∀ {k : Nat} (w : Word), k ≤ 32 → w.extractLsb' 0 k = w.setWidth k :=
    fun _ small => (BitVec.setWidth_eq_extractLsb' small).symm
  unfold transferContents at h
  split at h
  · cases h
  · next d direction =>
    dsimp only at h
    split at h
    · cases h
    · rw [← Option.some.inj h, directionOfCode_eq_some direction, low w1 (by decide), low w2 (by decide),
        low w3 (by decide)]

/-- Settles O42: the checks and the fields of each kind of descriptor. -/
theorem descriptorChecks : Obligations.DescriptorChecks := by
  intro w0 w1 w2 w3
  refine ⟨fun count => ?_, fun count => ?_⟩
  · rw [validateDescriptor_linkOnly count]
    exact ⟨linkOnlyContents_eq_none w0 w1 w2, fun _ => linkOnlyContents_eq_some⟩
  · rw [validateDescriptor_of_count count]
    exact ⟨transferContents_eq_none w0 w1 w2 w3, fun _ => transferContents_eq_some⟩

/-! ### The steps of the settling sequence (R39, R41 to R45) -/

section Settling

variable {s : State} {n : ChannelNo} {d : Transfer}

/-- What step REPORT posts (R42). -/
theorem reportKind_eq_some {short notify : Bool} {k : EventKind}
    (h : short = true ∧ k = .short ∨ short = false ∧ notify = true ∧ k = .done) :
    reportKind short notify = some k := by
  rcases h with ⟨rfl, rfl⟩ | ⟨rfl, rfl, rfl⟩ <;> rfl

theorem settleReport_of_silent (h : reportKind (s.channel n).short d.notify = none) :
    settleReport n d s = settleHold n d s := by
  simp only [settleReport, h]

theorem settleReport_posts {k : EventKind} (h : reportKind (s.channel n).short d.notify = some k)
    (slot : (s.channel n).pendingEvent = none) : settleReport n d s =
      settleHold n d (makePost n k (wordsDone (s.channel n) d) s) := by
  simp only [settleReport, h, slot, Option.isSome_none, Bool.false_eq_true, if_false,
    transferWordsDone_eq]

theorem settleReport_waits {k : EventKind} (h : reportKind (s.channel n).short d.notify = some k)
    (slot : (s.channel n).pendingEvent ≠ none) :
    settleReport n d s = s.putChannel n { s.channel n with state := .settling .report } := by
  simp only [settleReport, h, Option.isSome_iff_ne_none.mpr slot, if_true, waitAtStep]

theorem settleHold_of_clear (h : d.hold = false) : settleHold n d s = settleSelect n d s := by
  simp only [settleHold, h, Bool.false_eq_true, if_false]

theorem settleHold_posts (h : d.hold = true) (slot : (s.channel n).pendingEvent = none) :
    settleHold n d s = (makePost n .held (wordsDone (s.channel n) d) s).putChannel n
      { (makePost n .held (wordsDone (s.channel n) d) s).channel n with state := .holding } := by
  simp only [settleHold, h, slot, if_true, Option.isSome_none, Bool.false_eq_true, if_false,
    transferWordsDone_eq]

theorem settleHold_waits (h : d.hold = true) (slot : (s.channel n).pendingEvent ≠ none) :
    settleHold n d s = s.putChannel n { s.channel n with state := .settling .hold } := by
  simp only [settleHold, h, Option.isSome_iff_ne_none.mpr slot, if_true, waitAtStep]

/-- The alternate link is looked at only in a block that ended short (R44). -/
theorem altLink_none (h : (s.channel n).short = false ∨ d.altLink = none) :
    (if (s.channel n).short then d.altLink else none) = none := by
  rcases h with e | e <;> simp [e]

theorem settleSelect_follows {addr : PhysAddr} (h : (s.channel n).short = true ∧ d.altLink = some addr ∨
      ((s.channel n).short = false ∨ d.altLink = none) ∧ d.link = some addr) :
    settleSelect n d s = followLink n addr s := by
  unfold settleSelect
  rcases h with ⟨short, alt⟩ | ⟨alt, link⟩
  · simp only [short, alt, if_true]
  · simp only [altLink_none alt, link]

theorem settleSelect_ends_chain (alt : (s.channel n).short = false ∨ d.altLink = none)
    (link : d.link = none) (slot : (s.channel n).pendingEvent = none) :
    settleSelect n d s = endChain n (wordsDone (s.channel n) d) s := by
  simp only [settleSelect, altLink_none alt, link, slot, Option.isSome_none, Bool.false_eq_true, if_false,
    transferWordsDone_eq]

theorem settleSelect_waits (alt : (s.channel n).short = false ∨ d.altLink = none)
    (link : d.link = none) (slot : (s.channel n).pendingEvent ≠ none) :
    settleSelect n d s = s.putChannel n { s.channel n with state := .settling .select } := by
  simp only [settleSelect, altLink_none alt, link, Option.isSome_iff_ne_none.mpr slot, if_true, waitAtStep]

end Settling

/-- Settles O49: the steps REPORT, HOLD and SELECT, each where it posts, waits or goes on. -/
theorem settlingSteps : Obligations.SettlingSteps := by
  intro s n d
  refine ⟨fun short notify => settleReport_of_silent (by rw [short, notify]; rfl), fun k kind =>
    ⟨settleReport_posts (reportKind_eq_some kind), settleReport_waits (reportKind_eq_some kind)⟩,
    settleHold_of_clear, fun hold slot posted e => ?_, settleHold_waits, fun addr link =>
    ⟨fun aligned => ?_, fun unaligned => ?_⟩, fun alt link =>
    ⟨fun slot posted e => ?_, settleSelect_waits alt link⟩⟩
  · rw [e, settleHold_posts hold slot]
  · rw [settleSelect_follows link, followLink, if_pos ((aligned4_iff addr).mpr aligned), enterFetching]
  · rw [settleSelect_follows link, followLink, if_neg (mt (aligned4_iff addr).mp unaligned)]
  · rw [e, settleSelect_ends_chain alt link slot, endChain]

end Sys2Proof.Machine
end

section
/-! SUPPORT. What an operation on behalf of one channel leaves of the others, and the ranges that it keeps: the
frame that every command of the channels meets (O59, O60). -/

namespace Sys2Proof.Machine

-- The proofs are elaborated in turn: side by side their threads outgrow the check's memory limit.
set_option Elab.async false

variable {s t u : State} {n : ChannelNo} {c c' : Channel}

/-! ### The ranges of one record and of the event queue -/

/-- The stall counter of a record stands in its range (R158). -/
structure StallFits (c : Channel) : Prop where
  bound : c.stallCounter ≤ c.stallLimit
  running : c.state = .running → c.stallLimit ≠ 0 → c.stallCounter < c.stallLimit

/-- The fetch of a record is counted and aligned, and its link-only run is in its range (R29, R32, R40). -/
structure FetchFits (c : Channel) : Prop where
  words : inFetch c → c.fetched.length = c.fetchProgress.toNat
  progress : c.state = .fetching → c.fetchProgress < 4
  aligned : inFetch c → aligned4 c.descAddr
  run : c.linkOnlyRun ≤ 12

/-- The head age of an empty queue is 0, and the threshold is 1 to 24 (R123, R124). -/
structure QueueFits (q : EventQueue) : Prop where
  headAge : q.records = [] → q.headAge = 0
  threshold : 1 ≤ q.threshold ∧ q.threshold ≤ 24

/-- The timer has a period, and its prescaler stands below it (R153). -/
structure TimerFits (x : Timer) : Prop where
  period : x.period ≠ 0
  prescaler : x.prescaler < x.period

theorem stallInv_iff : StallInv s ↔ ∀ n, StallFits (s.channel n) :=
  ⟨fun h n => ⟨h.bound n, h.running n⟩, fun h => ⟨fun n => (h n).bound, fun n => (h n).running⟩⟩

theorem fetchInv_iff : FetchInv s ↔ ∀ n, FetchFits (s.channel n) :=
  ⟨fun h n => ⟨h.words n, h.progress n, h.aligned n, h.run n⟩,
    fun h => ⟨fun n => (h n).words, fun n => (h n).progress, fun n => (h n).aligned, fun n => (h n).run⟩⟩

theorem rangeInv_iff :
    RangeInv s ↔ s.port.streakLength ≤ 8 ∧ QueueFits s.queue ∧ TimerFits s.timer :=
  ⟨fun h => ⟨h.streak, ⟨h.headAge, h.threshold⟩, ⟨h.period, h.prescaler⟩⟩,
    fun ⟨streak, queue, timer⟩ =>
      ⟨streak, queue.headAge, queue.threshold, timer.period, timer.prescaler⟩⟩

/-- A stall counter that has been cleared is in its range, whatever the limit. -/
theorem StallFits.of_zero (h : c.stallCounter = 0) : StallFits c where
  bound := by rw [h]; bv_omega
  running _ on := by rw [h]; bv_omega

/-- Outside RUNNING the bound is all. -/
theorem StallFits.of_state (state : c.state ≠ .running) (bound : c.stallCounter ≤ c.stallLimit) :
    StallFits c :=
  ⟨bound, fun running => absurd running state⟩

/-- Outside a fetch the link-only run is all. -/
theorem FetchFits.of_not_inFetch (none : inFetch c = false) (run : c.linkOnlyRun ≤ 12) : FetchFits c where
  words fetching := by rw [none] at fetching; cases fetching
  progress fetching := by simp [inFetch, fetching] at none
  aligned fetching := by rw [none] at fetching; cases fetching
  run := run

/-- A channel halted in a fetch stays in it (R18, R19). -/
theorem inFetch_halted (h : c.state = .halting) : inFetch { c with state := .halted } = inFetch c := by
  unfold inFetch
  rw [h]
  rcases c.resume with _ | (_ | _) <;> rfl

/-- A fetch that begins at word 0 of an aligned address. -/
theorem FetchFits.of_begun (progress : c.fetchProgress = 0) (fetched : c.fetched = [])
    (aligned : aligned4 c.descAddr) (run : c.linkOnlyRun ≤ 12) : FetchFits c where
  words _ := by simp [progress, fetched]
  progress _ := by simp [progress]
  aligned _ := aligned
  run := run

theorem fetchFits_enterFaulted (s : State) (n : ChannelNo) (k : FaultKind)
    (run : (s.channel n).linkOnlyRun ≤ 12) : FetchFits ((enterFaulted n k s).channel n) := by
  rw [channel_enterFaulted, if_pos rfl]
  exact .of_not_inFetch rfl run

/-- A link followed begins a fetch or faults, whatever stood before (R39). -/
theorem fetchFits_followLink (s : State) (n : ChannelNo) (addr : PhysAddr)
    (run : (s.channel n).linkOnlyRun ≤ 12) : FetchFits ((followLink n addr s).channel n) := by
  unfold followLink
  split
  · next aligned =>
    rw [enterFetching, State.channel_putChannel_self]
    exact .of_begun rfl rfl aligned run
  · exact fetchFits_enterFaulted _ n _ (by simpa using run)

/-! ### The work of one channel -/

/-- What an operation on behalf of channel `n` may do between `s` and `t`: the other channels and their
transactions in flight stay, and the ranges are kept, those of the fetch where `account` holds. -/
structure ChannelWork (account : Prop) (n : ChannelNo) (s t : State) : Prop where
  others : ∀ m, m ≠ n → t.channel m = s.channel m
  flight : ∀ m, m ≠ n → t.channelInFlight m = s.channelInFlight m
  stall : StallFits (s.channel n) → StallFits (t.channel n)
  fetch : account → FetchFits (s.channel n) → FetchFits (t.channel n)
  streak : t.port.streakLength = s.port.streakLength
  queue : QueueFits s.queue → QueueFits t.queue
  timer : t.timer = s.timer

theorem channelInFlight_of_port (h : t.port = s.port) (m : ChannelNo) :
    t.channelInFlight m = s.channelInFlight m := by
  simp only [State.channelInFlight, h]

namespace ChannelWork

variable {account : Prop}

theorem refl (s : State) : ChannelWork account n s s :=
  ⟨fun _ _ => rfl, fun _ _ => rfl, id, fun _ => id, rfl, id, rfl⟩

theorem trans (h : ChannelWork account n s t) (g : ChannelWork account n t u) :
    ChannelWork account n s u where
  others m e := (g.others m e).trans (h.others m e)
  flight m e := (g.flight m e).trans (h.flight m e)
  stall := g.stall ∘ h.stall
  fetch a := g.fetch a ∘ h.fetch a
  streak := g.streak.trans h.streak
  queue := g.queue ∘ h.queue
  timer := g.timer.trans h.timer

/-- An update beside the channels, the port and the timer that keeps the ranges of the queue. -/
theorem of_tables (channels : t.channels = s.channels := by rfl) (port : t.port = s.port := by rfl)
    (timer : t.timer = s.timer := by rfl)
    (queue : QueueFits s.queue → QueueFits t.queue := by exact id) : ChannelWork account n s t where
  others m _ := State.channel_of_channels _ _ channels
  flight m _ := channelInFlight_of_port port m
  stall h := by rwa [State.channel_of_channels _ _ channels]
  fetch _ h := by rwa [State.channel_of_channels _ _ channels]
  streak := by rw [port]
  queue := queue
  timer := timer

/-- The record of the channel is replaced; without more said, by one that agrees with it on what the ranges
look at. -/
theorem putChannel (s : State) (n : ChannelNo) (c : Channel)
    (stall : StallFits (s.channel n) → StallFits c := by exact fun h => ⟨h.bound, h.running⟩)
    (fetch : account → FetchFits (s.channel n) → FetchFits c := by
      exact fun _ h => ⟨h.words, h.progress, h.aligned, h.run⟩) :
    ChannelWork account n s (s.putChannel n c) where
  others m e := State.channel_putChannel_of_ne s n m c e
  flight _ _ := rfl
  stall h := by simpa using stall h
  fetch a h := by simpa using fetch a h
  streak := rfl
  queue := id
  timer := rfl

/-- The fetch that the operation comes to is said apart. -/
theorem withFetch (w : ChannelWork False n s t)
    (fetch : account → FetchFits (s.channel n) → FetchFits (t.channel n)) : ChannelWork account n s t :=
  { w with fetch := fetch }

/-- A record replaced in the midst of an operation, by one with the same state and stall counter. -/
theorem putFetched (s : State) (n : ChannelNo) (c : Channel)
    (stall : StallFits (s.channel n) → StallFits c := by exact fun h => ⟨h.bound, h.running⟩) :
    ChannelWork False n s (s.putChannel n c) :=
  putChannel s n c stall fun h => h.elim

/-! ### The shared operations -/

theorem turnAway (s : State) (n : ChannelNo) : ChannelWork account n s (turnAway n s) := by
  rw [turnAway_eq]
  exact (putChannel s n { s.channel n with request := none }).trans .of_tables

theorem answerRequest (s : State) (n : ChannelNo) (a : Answer) :
    ChannelWork account n s (answerRequest n a s) :=
  (putChannel s n { s.channel n with request := none }).trans .of_tables

theorem discardTransaction (s : State) (n : ChannelNo) :
    ChannelWork account n s (discardTransaction n s) := by
  rw [discardTransaction_eq]
  exact ⟨fun _ _ => rfl, fun m _ => channelInFlight_of_abandonedPort s n m rfl, id, fun _ => id, rfl, id,
    rfl⟩

theorem enterFaulted (s : State) (n : ChannelNo) (k : FaultKind) :
    ChannelWork account n s (enterFaulted n k s) where
  others m e := by rw [channel_enterFaulted, if_neg e]
  flight m _ := channelInFlight_of_abandonedPort s n m (by rw [enterFaulted_eq])
  stall h := by
    rw [channel_enterFaulted, if_pos rfl]
    exact .of_state nofun h.bound
  fetch _ h := fetchFits_enterFaulted s n k h.run
  streak := by rw [enterFaulted_eq]; rfl
  queue h := by rw [enterFaulted_eq]; exact h
  timer := by rw [enterFaulted_eq]; rfl

theorem makePost (s : State) (n : ChannelNo) (k : EventKind) (words : BitVec 16) :
    ChannelWork account n s (makePost n k words s) := by
  rcases Nat.lt_or_ge s.queue.records.length 24 with room | full
  · rw [makePost_of_room s n k words room]
    exact .of_tables (queue := fun h => ⟨fun e => by simp at e, h.threshold⟩)
  · rw [makePost_of_full s n k words full]
    exact (putChannel s n { s.channel n with pendingEvent := some (postedRecord s n k words) }).trans
      (.of_tables (queue := fun h => ⟨h.headAge, h.threshold⟩))

theorem completeChannelCommand (s : State) (n : ChannelNo) (cmd : HostCommand) (r : ResultCode) :
    ChannelWork account n s (completeChannelCommand cmd n r s) := by
  rw [completeChannelCommand_eq]
  split
  · exact .of_tables
  · exact refl s

/-- A channel that leaves what it was doing for a state in which it neither runs nor fetches. -/
theorem putAside (s : State) (n : ChannelNo) (c : Channel) (state : c.state ≠ .running)
    (none : inFetch c = false)
    (bound : (s.channel n).stallCounter ≤ (s.channel n).stallLimit → c.stallCounter ≤ c.stallLimit := by
      exact id)
    (run : (s.channel n).linkOnlyRun ≤ 12 → c.linkOnlyRun ≤ 12 := by exact id) :
    ChannelWork account n s (s.putChannel n c) :=
  putChannel s n c (fun h => .of_state state (bound h.bound)) fun _ h => .of_not_inFetch none (run h.run)

/-! ### Links and the settling sequence (R39, R41 to R45) -/

theorem enterFetching (s : State) (n : ChannelNo) {addr : PhysAddr} (aligned : aligned4 addr) :
    ChannelWork account n s (enterFetching n addr s) :=
  putChannel s n _ (fun h => .of_state nofun h.bound) fun _ h => .of_begun rfl rfl aligned h.run

theorem followLink (s : State) (n : ChannelNo) (addr : PhysAddr) :
    ChannelWork account n s (followLink n addr s) := by
  refine withFetch ?_ fun _ h => fetchFits_followLink s n addr h.run
  unfold Machine.followLink
  split
  · next aligned => exact enterFetching s n aligned
  · exact (putFetched s n _).trans (enterFaulted _ n _)

theorem settlingEnds (ends : SettlingEnds n s t) : ChannelWork account n s t := by
  cases ends with
  | follows addr => exact followLink s n addr
  | waits step => exact putAside s n _ nofun rfl
  | holds words => exact (makePost s n _ _).trans (putAside _ n _ nofun rfl)
  | ends words => exact (makePost s n _ _).trans (putAside _ n _ nofun rfl)

theorem settleSelect (s : State) (n : ChannelNo) (d : Transfer) :
    ChannelWork account n s (settleSelect n d s) :=
  settlingEnds (settleSelect_ends s n d)

theorem settleFrom (s : State) (n : ChannelNo) (step : SettlingStep) (d : Transfer) :
    ChannelWork account n s (settleFrom n step d s) := by
  rcases settleFrom_ends s n step d with ends | ⟨k, words, ends⟩
  · exact settlingEnds ends
  · exact (makePost s n k words).trans (settlingEnds ends)

/-! ### The end of an event at a channel -/

theorem completeBlock (s : State) (n : ChannelNo) : ChannelWork account n s (completeBlock n s) := by
  unfold Machine.completeBlock
  split
  · exact refl s
  · exact settleFrom s n .report _

theorem resumeSettling (s : State) (n : ChannelNo) : ChannelWork account n s (resumeSettling n s) := by
  unfold Machine.resumeSettling
  split
  · exact refl s
  · exact settleFrom s n _ _

/-- HALTED keeps the fetch of HALTING as it stands (R18, R19). -/
theorem leaveHalting (s : State) (n : ChannelNo) : ChannelWork account n s (leaveHalting n s) := by
  unfold Machine.leaveHalting
  split
  · next due =>
    refine (makePost s n _ _).trans (ChannelWork.trans (putChannel _ n _ ?_ fun _ h => ?_)
      (completeChannelCommand _ n _ _))
    · exact fun h => .of_state nofun h.bound
    · have halting : ((Machine.makePost n .halted (haltedWordsDone (s.channel n)) s).channel n).state =
          .halting := by rw [makePost_state, halting_of_due due]
      have same := inFetch_halted halting
      exact ⟨fun fetching => h.words (same ▸ fetching), nofun,
        fun fetching => h.aligned (same ▸ fetching), h.run⟩
  · exact refl s

theorem leaveAborting (s : State) (n : ChannelNo) : ChannelWork account n s (leaveAborting n s) := by
  unfold Machine.leaveAborting
  split
  · exact (makePost s n _ _).trans ((putAside _ n _ (by simp) rfl fun _ => (StallFits.of_zero rfl).bound).trans
      (completeChannelCommand _ n _ _))
  · exact refl s

/-- An answer in RUNNING that goes on to clear the stall counter, the fetch left as it is. -/
theorem answerAndClear (s : State) (n : ChannelNo) (a : Answer) (words : List Word) (count : BitVec 16) :
    ChannelWork account n s ((Machine.answerRequest n a s).putChannel n
      { (Machine.answerRequest n a s).channel n with
        staging := words, exchanged := count, stallCounter := 0 }) :=
  (answerRequest s n a).trans (putChannel _ n _ fun _ => .of_zero rfl)

theorem meetEnd (s : State) (n : ChannelNo) (d : Transfer) : ChannelWork account n s (meetEnd n d s) := by
  unfold Machine.meetEnd
  dsimp only
  refine (answerRequest s n .ack).trans ?_
  split
  · split
    · exact putChannel _ n _
    · exact (putChannel _ n _).trans (discardTransaction _ n)
  · exact refl _

theorem meetInRunning (s : State) (n : ChannelNo) (d : Transfer) (r : LinkRequest) :
    ChannelWork account n s (meetInRunning n d r s) := by
  unfold Machine.meetInRunning
  dsimp only
  split
  · split
    · exact answerAndClear s n _ _ _
    · exact refl s
  · exact enterFaulted s n _
  · exact enterFaulted s n _
  · split
    · exact refl s
    · exact answerAndClear s n _ _ _
  · exact meetEnd s n d
  · exact enterFaulted s n _

theorem meetWhileWaiting (s : State) (n : ChannelNo) (r : LinkRequest) :
    ChannelWork account n s (meetWhileWaiting n r s) := by
  cases r with
  | fail => exact enterFaulted s n _
  | offer | ask | endBlock => exact refl s

theorem meetRequest (s : State) (n : ChannelNo) : ChannelWork account n s (meetRequest n s) := by
  unfold Machine.meetRequest
  dsimp only
  cases (s.channel n).request with
  | none => exact refl s
  | some r =>
    cases (s.channel n).state with
    | disabled | idle | aborting | faulted => exact turnAway s n
    | fetching | settling _ | holding | halting | halted => exact meetWhileWaiting s n r
    | running =>
      cases (s.channel n).contents with
      | none => exact meetWhileWaiting s n r
      | some x =>
        cases x with
        | linkOnly a => exact meetWhileWaiting s n r
        | transfer d => exact meetInRunning s n d r

theorem carryOn (s : State) (n : ChannelNo) : ChannelWork account n s (carryOn n s) :=
  (resumeSettling s n).trans <| (leaveHalting _ n).trans <| (leaveAborting _ n).trans <|
    (completeBlock _ n).trans <| (meetRequest _ n).trans <| (completeBlock _ n).trans (meetRequest _ n)

end ChannelWork

/-! ### A channel at which nothing is due -/

/-- At channel `n` no transition and no answer is due. -/
structure QuietAt (s : State) (n : ChannelNo) : Prop extends AtRest s n where
  request : requestDue (s.channel n) = false

theorem NothingDue.quietAt (h : NothingDue s) (n : ChannelNo) : QuietAt s n :=
  ⟨⟨h.settling n, h.halting n, h.aborting n, h.block n⟩, h.request n⟩

/-- What is due at a channel is seen in its record, not in the stall counter and the fault of it, and in whether
its transaction is in flight; one that is in flight makes nothing due. -/
theorem QuietAt.of_record (h : QuietAt s n) {x : BitVec 8} {f : Option HeldFault}
    (channel : t.channel n = { s.channel n with stallCounter := x, fault := f })
    (flight : t.channelInFlight n = s.channelInFlight n ∨ t.channelInFlight n = true) : QuietAt t n where
  settling := by simpa only [resumedStep, channel] using h.settling
  halting := by
    rcases flight with same | flying
    · simpa only [leaveHaltingDue, channel, same] using h.halting
    · simp [leaveHaltingDue, flying]
  aborting := by
    rcases flight with same | flying
    · simpa only [leaveAbortingDue, channel, same] using h.aborting
    · simp [leaveAbortingDue, flying]
  block := by
    rcases flight with same | flying
    · have block : completedBlock t n = completedBlock s n := by
        unfold completedBlock
        rw [channel, same]
        rfl
      rw [block, h.block]
    · unfold completedBlock
      dsimp only
      split
      · simp [completionHolds, flying]
      · rfl
  request := by
    rw [channel]
    exact h.request

theorem QuietAt.of_agree (h : QuietAt s n) (channel : t.channel n = s.channel n)
    (flight : t.channelInFlight n = s.channelInFlight n ∨ t.channelInFlight n = true) : QuietAt t n :=
  h.of_record channel flight

theorem ChannelWork.quiet {account : Prop} (h : ChannelWork account n s t)
    (others : ∀ m, m ≠ n → QuietAt s m) (own : QuietAt t n) (m : ChannelNo) : QuietAt t m := by
  by_cases e : m = n
  · rw [e]; exact own
  · exact (others m e).of_agree (h.others m e) (.inl (h.flight m e))

/-- A channel without a standing request in a state that it does not leave of itself. -/
theorem QuietAt.of_state (state : (s.channel n).state = .fetching ∨ (s.channel n).state = .holding ∨
      (s.channel n).state = .halted ∨ (s.channel n).state = .idle ∨ (s.channel n).state = .faulted)
    (none : (s.channel n).request = none) : QuietAt s n :=
  ⟨.of_state state, by simp [requestDue, none]⟩

theorem quietAt_enterFaulted (s : State) (n : ChannelNo) (k : FaultKind) :
    QuietAt (enterFaulted n k s) n :=
  .of_state (by simp [channel_enterFaulted, faultedChannel])
    (by simp [channel_enterFaulted, faultedChannel])

/-- At channel `n` no settling, halting or aborting goes on. -/
structure NoTransition (s : State) (n : ChannelNo) : Prop where
  settling : resumedStep s n = none
  halting : leaveHaltingDue s n = false
  aborting : leaveAbortingDue s n = false

theorem AtRest.noTransition (h : AtRest s n) : NoTransition s n := ⟨h.settling, h.halting, h.aborting⟩

theorem resumeSettling_settled (s : State) (n : ChannelNo) : resumedStep (resumeSettling n s) n = none := by
  by_cases due : resumedStep s n = none
  · rw [resumeSettling_of_none s n due, due]
  · exact (resumeSettling_atRest due).settling

theorem leaveHalting_halted (settling : resumedStep s n = none) :
    resumedStep (leaveHalting n s) n = none ∧ leaveHaltingDue (leaveHalting n s) n = false := by
  cases due : leaveHaltingDue s n with
  | false =>
    rw [leaveHalting_of_not_due s n due]
    exact ⟨settling, due⟩
  | true =>
    have rest : AtRest (leaveHalting n s) n := .of_state (by simp [leaveHalting_state due])
    exact ⟨rest.settling, rest.halting⟩

theorem leaveAborting_noTransition (settling : resumedStep s n = none)
    (halting : leaveHaltingDue s n = false) : NoTransition (leaveAborting n s) n := by
  cases due : leaveAbortingDue s n with
  | false =>
    rw [leaveAborting_of_not_due s n due]
    exact ⟨settling, halting, due⟩
  | true =>
    have rest : AtRest (leaveAborting n s) n := .of_state (by simp [leaveAborting_state due])
    exact rest.noTransition

theorem NoTransition.completeBlock (h : NoTransition s n) : AtRest (completeBlock n s) n := by
  by_cases due : completedBlock s n = none
  · rw [completeBlock_of_none s n due]
    exact ⟨h.settling, h.halting, h.aborting, due⟩
  · exact completeBlock_atRest due

/-- A request met at a channel at rest stands, or is answered, and the block that the answer completes is
settled: the second look at the request finds none (R52, R69). -/
theorem AtRest.meetRequest_quiet (rest : AtRest s n) :
    QuietAt (meetRequest n (completeBlock n (meetRequest n s))) n := by
  cases due : requestDue (s.channel n) with
  | false =>
    rw [meetRequest_of_not_due s n due, completeBlock_of_none s n rest.block, meetRequest_of_not_due s n due]
    exact ⟨rest, due⟩
  | true =>
    have answered := completeBlock_request (meetRequest_request due)
    obtain ⟨settling, halting, aborting⟩ :=
      (meetRequest_met s n).keeps_rest rest.settling rest.halting rest.aborting
    have still : NoTransition (meetRequest n s) n := ⟨settling, halting, aborting⟩
    rw [meetRequest_of_none answered]
    exact ⟨still.completeBlock, by simp [requestDue, answered]⟩

/-- Whatever was due at a channel, nothing is when it has gone on (R10, R19, R25, R52, R69). -/
theorem carryOn_quiet (s : State) (n : ChannelNo) : QuietAt (carryOn n s) n := by
  obtain ⟨settling, halting⟩ := leaveHalting_halted (resumeSettling_settled s n)
  exact (leaveAborting_noTransition settling halting).completeBlock.meetRequest_quiet

end Sys2Proof.Machine
end

section
/-! SUPPORT. The end of an event leaves nothing due, where nothing is due at a channel (R85, R91, R100, R106,
R137, R144, R148). -/

namespace Sys2Proof.Machine

-- The proofs are elaborated in turn: side by side their threads outgrow the check's memory limit.
set_option Elab.async false

variable {s t u : State} {n : ChannelNo}

/-! ### Updates beside the channels -/

/-- Between `s` and `t` the channels, the port, the event queue, the timer and CONTROL stay. -/
structure Beside (s t : State) : Prop where
  channels : t.channels = s.channels := by rfl
  port : t.port = s.port := by rfl
  queue : t.queue = s.queue := by rfl
  timer : t.timer = s.timer := by rfl
  control : t.control = s.control := by rfl

theorem Beside.trans (h : Beside s t) (g : Beside t u) : Beside s u :=
  ⟨g.channels.trans h.channels, g.port.trans h.port, g.queue.trans h.queue, g.timer.trans h.timer,
    g.control.trans h.control⟩

theorem Beside.quiet (h : Beside s t) (quiet : ∀ n, QuietAt s n) (n : ChannelNo) : QuietAt t n :=
  (quiet n).of_agree (State.channel_of_channels _ _ h.channels) (.inl (channelInFlight_of_port h.port n))

theorem endDrain_beside (s : State) : Beside s (endDrain s) := by
  unfold endDrain
  split <;> exact {}

theorem endWriteEntry_beside (s : State) : Beside s (endWriteEntry s) := by
  unfold endWriteEntry
  split <;> exact {}

theorem endLogStop_beside (s : State) : Beside s (endLogStop s) := by
  unfold endLogStop
  split <;> exact {}

theorem beginRingRecord_beside (s : State) : Beside s (beginRingRecord s) := by
  unfold beginRingRecord
  split <;> exact {}

theorem beginOverflowRecord_beside (s : State) : Beside s (beginOverflowRecord s) := by
  unfold beginOverflowRecord
  split <;> exact {}

theorem logWork_beside (s : State) : Beside s (logWork s) :=
  ((endLogStop_beside s).trans (beginRingRecord_beside _)).trans (beginOverflowRecord_beside _)

/-! ### A drain and a rewrite that nothing holds -/

/-- No drain and no WRITE ENTRY is left to end (R85, R91). -/
structure Released (s : State) : Prop where
  drain : drainedLoad s = none
  rewrite : releasedWriteEntry s = none

theorem drainedLoad_endDrain (s : State) : drainedLoad (endDrain s) = none := by
  unfold endDrain
  split
  · next none => exact none
  · rfl

theorem released_endWriteEntry (h : drainedLoad s = none) : Released (endWriteEntry s) := by
  unfold endWriteEntry
  split
  · next none => exact ⟨h, none⟩
  · exact ⟨h, rfl⟩

/-- A command that has ended leaves no WRITE ENTRY to end. -/
theorem Released.of_command (h : Released s) (loader : t.loader = s.loader) (port : t.port = s.port)
    (command : t.command.inProgress = s.command.inProgress ∨ t.command.inProgress = none) :
    Released t where
  drain := by
    have same : drainedLoad t = drainedLoad s := by
      unfold drainedLoad State.setInUse
      rw [loader, port]
    rw [same, h.drain]
  rewrite := by
    rcases command with same | none
    · have same : releasedWriteEntry t = releasedWriteEntry s := by
        unfold releasedWriteEntry State.entryInUse
        rw [same, port]
      rw [same, h.rewrite]
    · simp only [releasedWriteEntry, none]

/-- While the port is free neither waits, so that a transaction issued holds neither. -/
theorem Released.of_free (h : Released s) (free : s.port.inFlight = none) (loader : t.loader = s.loader)
    (command : t.command = s.command) : Released t where
  drain := by
    have drain := h.drain
    unfold drainedLoad State.setInUse at drain ⊢
    rw [free] at drain
    rw [loader]
    cases e : s.loader with
    | none => rfl
    | some l =>
      have other : (l.phase == .draining) = false := by simpa [e] using drain
      simp only [other, Bool.false_and, Bool.false_eq_true, if_false]
  rewrite := by
    have rewrite := h.rewrite
    unfold releasedWriteEntry State.entryInUse at rewrite ⊢
    rw [free] at rewrite
    rw [command]
    cases e : s.command.inProgress with
    | none => rfl
    | some l =>
      have other : (l.command == .writeEntry) = false := by simpa [e] using rewrite
      simp only [other, Bool.false_and, Bool.false_eq_true, if_false]

/-! ### The log writer's turn -/

/-- No LOG STOP is left to end and no record to begin (R137, R144, R148). -/
structure LogQuiet (s : State) : Prop where
  stop : logStopDue s = false
  ring : ringRecordDue s = none
  overflow : overflowRecordDue s = none

/-- While a record is under way the log writer waits for it. -/
theorem LogQuiet.of_underWay (h : s.log.underWay.isSome) : LogQuiet s := by
  have under : s.log.underWay.isNone = false := by simpa using h
  constructor <;> simp [logStopDue, ringRecordDue, overflowRecordDue, under]

theorem LogQuiet.of_waits (h : LogQuiet s) (log : t.log = s.log) (waits : logStopWaits t = logStopWaits s) :
    LogQuiet t := by
  obtain ⟨stop, ring, overflow⟩ := h
  unfold logStopDue at stop
  unfold ringRecordDue at ring
  unfold overflowRecordDue at overflow
  constructor
  · rw [logStopDue, waits, log, stop]
  · rw [ringRecordDue, waits, log, ring]
  · rw [overflowRecordDue, waits, log, overflow]

theorem LogQuiet.of_agree (h : LogQuiet s) (log : t.log = s.log)
    (command : t.command.inProgress = s.command.inProgress) : LogQuiet t :=
  h.of_waits log (by rw [logStopWaits, logStopWaits, command])

theorem logStopDue_endLogStop (s : State) : logStopDue (endLogStop s) = false := by
  unfold endLogStop
  split
  · rfl
  · next h => simpa using h

theorem beginRingRecord_cases (s : State) :
    beginRingRecord s = s ∧ ringRecordDue s = none ∨ (beginRingRecord s).log.underWay.isSome := by
  cases due : ringRecordDue s with
  | none => exact .inl ⟨beginRingRecord_of_none s due, rfl⟩
  | some n => exact .inr (by simp [beginRingRecord, due])

theorem beginOverflowRecord_cases (s : State) :
    beginOverflowRecord s = s ∧ overflowRecordDue s = none ∨
      (beginOverflowRecord s).log.underWay.isSome := by
  cases due : overflowRecordDue s with
  | none => exact .inl ⟨beginOverflowRecord_of_none s due, rfl⟩
  | some n => exact .inr (by simp [beginOverflowRecord, due])

theorem logWork_quiet (s : State) : LogQuiet (logWork s) := by
  unfold logWork
  have stop := logStopDue_endLogStop s
  generalize endLogStop s = a at stop ⊢
  rcases beginOverflowRecord_cases (beginRingRecord a) with ⟨same, overflow⟩ | under
  · rw [same]
    rcases beginRingRecord_cases a with ⟨same, ring⟩ | under
    · rw [same] at overflow ⊢
      exact ⟨stop, ring, overflow⟩
    · exact .of_underWay under
  · exact .of_underWay under

/-- The log writer's turn changes the log, and of the command port only that a LOG STOP ends. -/
theorem logWork_frame (s : State) : (logWork s).loader = s.loader ∧ (logWork s).sets = s.sets ∧
    ((logWork s).command.inProgress = s.command.inProgress ∨ (logWork s).command.inProgress = none) := by
  have ring : ∀ a, ∃ l, beginRingRecord a = { a with log := l } := fun a => by
    unfold beginRingRecord
    split <;> exact ⟨_, rfl⟩
  have overflow : ∀ a, ∃ l, beginOverflowRecord a = { a with log := l } := fun a => by
    unfold beginOverflowRecord
    split <;> exact ⟨_, rfl⟩
  obtain ⟨l, e⟩ := ring (endLogStop s)
  obtain ⟨l', e'⟩ := overflow (beginRingRecord (endLogStop s))
  rw [logWork, e', e]
  unfold endLogStop
  split
  · exact ⟨rfl, rfl, .inr rfl⟩
  · exact ⟨rfl, rfl, .inl rfl⟩

/-! ### The grant -/

/-- What a request is seen in. -/
theorem eligibleRequest_congr (channel : t.channel n = s.channel n)
    (flight : t.channelInFlight n = s.channelInFlight n)
    (sets : ∀ m, (t.mapSet m).state = (s.mapSet m).state) : eligibleRequest t n = eligibleRequest s n := by
  have ready : boundSetReady t n = boundSetReady s n := by
    unfold boundSetReady
    rw [channel]
    cases (s.channel n).mapSet with
    | none => rfl
    | some m => simp only [sets]
  have presented : channelRequest t n = channelRequest s n := by
    unfold channelRequest
    rw [channel, flight]
  rw [eligibleRequest, eligibleRequest, presented, ready]

/-- Only a channel that fetches or runs presents a request (R98). -/
theorem eligibleRequest_of_state (fetching : (s.channel n).state ≠ .fetching)
    (running : (s.channel n).state ≠ .running) : eligibleRequest s n = none := by
  have none : channelRequest s n = none := by
    unfold channelRequest
    dsimp only
    split
    · rfl
    · split
      · next e => exact absurd e fetching
      · next e => exact absurd e running
      · rfl
  simp only [eligibleRequest, none]

theorem eligibleRequest_enterFaulted (s : State) (n m : ChannelNo) (k : FaultKind) :
    eligibleRequest (enterFaulted n k s) m = if m = n then none else eligibleRequest s m := by
  split
  · next e =>
    apply eligibleRequest_of_state <;> simp [e, channel_enterFaulted, faultedChannel]
  · next e =>
    exact eligibleRequest_congr (by rw [channel_enterFaulted, if_neg e])
      (channelInFlight_of_abandonedPort s n m (by rw [enterFaulted_eq]))
      fun x => by rw [enterFaulted_eq]; rfl

/-- A refusal takes the request of its channel away, and no other (R104). -/
theorem eligibleChannels_enterFaulted (s : State) (n : ChannelNo) (k : FaultKind) :
    eligibleChannels (enterFaulted n k s) = (eligibleChannels s).filter (· ≠ n) := by
  unfold eligibleChannels
  rw [List.filter_filter]
  refine List.filter_congr fun m _ => ?_
  rw [eligibleRequest_enterFaulted]
  by_cases e : m = n <;> simp [e]

theorem eligibleChannels_of_chosen_none (h : chosenChannel s = none) : eligibleChannels s = [] := by
  unfold chosenChannel at h
  split at h
  · cases h
  · exact List.head?_eq_none_iff.mp h

theorem chosenChannel_mem (h : chosenChannel s = some n) : n ∈ eligibleChannels s := by
  unfold chosenChannel at h
  split at h
  · next found =>
    cases h
    exact List.mem_of_find?_eq_some found
  · exact List.mem_of_head? h

/-- The length of a streak stays in its range at a grant (R102). -/
theorem streakAfter_le (p : Port) (n : ChannelNo) (competing : Bool) (h : p.streakLength ≤ 8) :
    (streakAfter p n competing).streakLength ≤ 8 := by
  unfold streakAfter
  split
  · split
    · next below =>
      simp only [Bool.and_eq_true, decide_eq_true_eq] at below
      have := below.2
      show p.streakLength + 1 ≤ 8
      bv_omega
    · exact h
  · show (1 : BitVec 4) ≤ 8
    decide

/-- A transaction issued between `s` and `t`: the port is busy, and an entry may be marked (R81, R96, R102). -/
structure Issued (s t : State) : Prop where
  frame : ∃ p v, t = { s with port := p, sets := v }
  busy : t.port.inFlight.isSome
  streak : s.port.streakLength ≤ 8 → t.port.streakLength ≤ 8

theorem issued_issue (purpose : Purpose) (addr : PhysAddr) (s : State) : Issued s (issue purpose addr s) :=
  ⟨⟨_, _, rfl⟩, rfl, id⟩

theorem issued_issueForChannel (n : ChannelNo) (purpose : Purpose) (addr : PhysAddr) (s : State) :
    Issued s (issueForChannel n purpose addr s) :=
  ⟨⟨_, _, rfl⟩, rfl, streakAfter_le _ _ _⟩

/-- A data request granted is issued, or faults its channel (R79, R104). -/
theorem grantData_cases (n : ChannelNo) (m : SetNo) (logical : LogAddr) (a : Access)
    (purpose : PageNo → Purpose) (s : State) :
    (∃ t, grantData n m logical a purpose s = .issued t ∧ Issued s t) ∨
      ∃ k, grantData n m logical a purpose s = .refused (enterFaulted n k s) := by
  unfold grantData
  split
  · exact .inl ⟨_, rfl, ⟨_, _, rfl⟩, rfl, streakAfter_le _ _ _⟩
  · exact .inr ⟨_, rfl⟩

/-- A data request is eligible only in a channel that is bound (R99). -/
theorem mapSet_of_eligible {r : ChannelRequest} (request : eligibleRequest s n = some r)
    (data : ∀ addr, r ≠ .desc addr) : (s.channel n).mapSet.isSome := by
  unfold eligibleRequest at request
  split at request
  · cases request; exact absurd rfl (data _)
  · split at request
    · next ready =>
      unfold boundSetReady at ready
      split at ready
      · cases ready
      · next bound => rw [bound]; rfl
    · cases request
  · cases request

theorem grantChannel_cases {r : ChannelRequest} (request : eligibleRequest s n = some r) :
    (∃ t, grantChannel n r s = .issued t ∧ Issued s t) ∨
      ∃ k, grantChannel n r s = .refused (enterFaulted n k s) := by
  cases r with
  | desc addr => exact .inl ⟨_, rfl, issued_issueForChannel n _ addr s⟩
  | read logical =>
    obtain ⟨m, bound⟩ := Option.isSome_iff_exists.mp (mapSet_of_eligible request (by simp))
    simp only [grantChannel, bound]
    exact grantData_cases n m _ _ _ s
  | write logical w =>
    obtain ⟨m, bound⟩ := Option.isSome_iff_exists.mp (mapSet_of_eligible request (by simp))
    simp only [grantChannel, bound]
    exact grantData_cases n m _ _ _ s

/-- The arbiter has no grant left to make but one to the log writer. -/
def OnlyLogGrant (s : State) : Prop :=
  canGrant s = true → mapRequest s = none ∧ eligibleChannels s = []

/-- What the arbiter comes to from `s`: refused grants, each of which faults its channel, and then one that
issues a transaction, or none where no grant is left to make but one for a record that a refusal gave its
word (R79, R100, R104). -/
inductive Granted : State → State → Prop
  | rests {s : State} (none : OnlyLogGrant s) : Granted s s
  | issues {s t : State} (free : s.port.inFlight = none) (issued : Issued s t) : Granted s t
  | refuses {s t : State} (free : s.port.inFlight = none) (n : ChannelNo) (k : FaultKind)
      (rest : Granted (enterFaulted n k s) t) :
      Granted s t

theorem free_of_canGrant (h : canGrant s = true) : s.port.inFlight = none := by
  simp only [canGrant, Bool.and_eq_true, Option.isNone_iff_eq_none] at h
  exact h.1

/-- Each refusal takes one request away, so that as many rounds as there are requests are enough (R104). -/
theorem grantChannels_granted (k : Nat) : ∀ s : State, canGrant s = true → mapRequest s = none →
    (eligibleChannels s).length < k → Granted s (grantChannels k s) := by
  induction k with
  | zero => exact fun _ _ _ h => absurd h (Nat.not_lt_zero _)
  | succ k ih =>
    intro s can map rounds
    unfold grantChannels
    cases chosen : chosenChannel s with
    | none => exact .rests fun _ => ⟨map, eligibleChannels_of_chosen_none chosen⟩
    | some n =>
      have mem := chosenChannel_mem chosen
      obtain ⟨r, request⟩ := Option.isSome_iff_exists.mp (List.mem_filter.mp mem).2
      simp only [request]
      rcases grantChannel_cases request with ⟨t, granted, issued⟩ | ⟨kind, refused⟩
      · rw [granted]
        exact .issues (free_of_canGrant can) issued
      · rw [refused]
        refine .refuses (free_of_canGrant can) n kind (ih _ ?_ ?_ ?_)
        · rw [enterFaulted_eq]
          simpa [canGrant, abandonedPort] using can
        · rw [enterFaulted_eq]
          exact map
        · have fewer : ((eligibleChannels s).filter (· ≠ n)).length < (eligibleChannels s).length :=
            List.length_filter_lt_length_iff_exists.mpr ⟨n, mem, by simp⟩
          rw [eligibleChannels_enterFaulted]
          omega

theorem arbitrate_granted (s : State) : Granted s (arbitrate s) := by
  unfold arbitrate
  split
  · next can =>
    have free := free_of_canGrant can
    split
    · exact .issues free (issued_issue _ _ s)
    · next map =>
      split
      · exact .issues free (issued_issue _ _ s)
      · refine grantChannels_granted 17 s can map (Nat.lt_succ_of_le ?_)
        exact List.length_filter_le _ channelNumbers
  · next cannot => exact .rests fun can => absurd can cannot

theorem Granted.quiet (h : Granted s t) : (∀ n, QuietAt s n) → ∀ n, QuietAt t n := by
  induction h with
  | rests => exact id
  | @issues s _ free issued =>
    intro quiet m
    obtain ⟨p, v, rfl⟩ := issued.frame
    have idle : s.channelInFlight m = false := by simp only [State.channelInFlight, free]
    refine (quiet m).of_agree rfl ?_
    rw [idle]
    exact (Bool.eq_false_or_eq_true _).symm
  | refuses _ n k _ ih =>
    exact fun quiet => ih ((ChannelWork.enterFaulted (account := True) _ n k).quiet
      (fun m _ => quiet m) (quietAt_enterFaulted _ n k))

theorem abandonedPort_of_free {p : Port} (free : p.inFlight = none) (n : ChannelNo) :
    abandonedPort n p = p := by
  cases p
  cases free
  rfl

theorem Granted.released (h : Granted s t) : Released s → Released t := by
  induction h with
  | rests => exact id
  | issues free issued =>
    intro released
    obtain ⟨p, v, rfl⟩ := issued.frame
    exact released.of_free free rfl rfl
  | refuses free n k _ ih =>
    refine fun released => ih (released.of_command ?_ ?_ ?_) <;> rw [enterFaulted_eq]
    · rfl
    · exact abandonedPort_of_free free n
    · dsimp only
      split
      · exact .inr rfl
      · exact .inl rfl

theorem Granted.onlyLogGrant (h : Granted s t) : OnlyLogGrant t := by
  induction h with
  | rests none => exact none
  | issues _ issued =>
    intro can
    have busy := issued.busy
    rw [free_of_canGrant can] at busy
    cases busy
  | refuses _ _ _ _ ih => exact ih

theorem OnlyLogGrant.logWork (h : OnlyLogGrant s) : OnlyLogGrant (logWork s) := by
  obtain ⟨loader, sets, -⟩ := logWork_frame s
  have beside := logWork_beside s
  have can : canGrant (Machine.logWork s) = canGrant s := by
    rw [canGrant, canGrant, beside.port, beside.control]
  have map : mapRequest (Machine.logWork s) = mapRequest s := by rw [mapRequest, mapRequest, loader]
  have channels : eligibleChannels (Machine.logWork s) = eligibleChannels s :=
    List.filter_congr fun n _ => by
      rw [eligibleRequest_congr (State.channel_of_channels _ _ beside.channels)
        (channelInFlight_of_port beside.port n) fun m => by rw [State.mapSet_of_sets _ _ sets]]
  rwa [OnlyLogGrant, can, map, channels]

theorem OnlyLogGrant.arbitrate (h : OnlyLogGrant s) :
    Machine.arbitrate s = s ∧ (canGrant s = true → logRequest s = none) ∨
      Issued s (Machine.arbitrate s) := by
  cases can : canGrant s with
  | false => exact .inl ⟨arbitrate_of_cannot s can, nofun⟩
  | true =>
    obtain ⟨map, none⟩ := h can
    cases log : logRequest s with
    | none => exact .inl ⟨arbitrate_of_no_request s map log none, fun _ => rfl⟩
    | some x =>
      have granted : Machine.arbitrate s = issue (.logWrite x.2) x.1 s := by
        simp only [Machine.arbitrate, can, map, log, if_true]
      exact .inr (granted ▸ issued_issue _ _ s)

/-! ### The end of an event -/

/-- Nothing is due at a channel, and no drain and no WRITE ENTRY is left to end. -/
structure ChannelsRest (s : State) : Prop extends Released s where
  quiet : ∀ n, QuietAt s n

theorem ChannelsRest.logWork (h : ChannelsRest s) : ChannelsRest (logWork s) where
  toReleased := h.of_command (logWork_frame s).1 (logWork_beside s).port (logWork_frame s).2.2
  quiet := (logWork_beside s).quiet h.quiet

theorem Granted.channelsRest (g : Granted s t) (h : ChannelsRest s) : ChannelsRest t where
  toReleased := g.released h.toReleased
  quiet := g.quiet h.quiet

theorem ChannelsRest.nothingDue (h : ChannelsRest s) (log : LogQuiet s)
    (grant : canGrant s = true → mapRequest s = none ∧ logRequest s = none ∧ eligibleChannels s = []) :
    NothingDue s where
  settling n := (h.quiet n).settling
  halting n := (h.quiet n).halting
  aborting n := (h.quiet n).aborting
  block n := (h.quiet n).block
  request n := (h.quiet n).request
  drain := h.drain
  rewrite := h.rewrite
  logStop := log.stop
  ring := log.ring
  overflow := log.overflow
  grant := grant

/-- EVENTS and INTOUT make nothing due. -/
theorem NothingDue.refreshInterrupts (h : NothingDue s) : NothingDue (refreshInterrupts s) :=
  ⟨h.settling, h.halting, h.aborting, h.block, h.request, h.drain, h.rewrite, h.logStop, h.ring,
    h.overflow, h.grant⟩

/-- The last grant of an event is the log writer's, or there is none: it refuses no request (log entry 5). -/
theorem ChannelsRest.arbitrate (h : ChannelsRest s) (log : LogQuiet s) (only : OnlyLogGrant s) :
    NothingDue (arbitrate s) := by
  have rest := (arbitrate_granted s).channelsRest h
  rcases only.arbitrate with ⟨same, written⟩ | issued
  · rw [same]
    exact h.nothingDue log fun can => ⟨(only can).1, written can, (only can).2⟩
  · obtain ⟨p, v, e⟩ := issued.frame
    refine rest.nothingDue (log.of_agree (by rw [e]) (by rw [e])) fun can => ?_
    have busy := issued.busy
    rw [free_of_canGrant can] at busy
    cases busy

/-- The end of an event leaves nothing due, where nothing was due at a channel (R106). -/
theorem finishEvent_nothingDue (quiet : ∀ n, QuietAt s n) : NothingDue (finishEvent s) := by
  have begun : ChannelsRest (endWriteEntry (endDrain s)) :=
    { toReleased := released_endWriteEntry (drainedLoad_endDrain s)
      quiet := ((endDrain_beside s).trans (endWriteEntry_beside _)).quiet quiet }
  have granted := arbitrate_granted (logWork (endWriteEntry (endDrain s)))
  have rest := granted.channelsRest begun.logWork
  exact (rest.logWork.arbitrate (logWork_quiet _) granted.onlyLogGrant.logWork).refreshInterrupts

end Sys2Proof.Machine
end

section
/-! SUPPORT. What an event keeps, as relations between two states: the ranges, the quiet of the channels before
the end of the event, and after it that nothing is due and the levels of EVENTS and INTOUT. -/

namespace Sys2Proof.Machine

-- The proofs are elaborated in turn: side by side their threads outgrow the check's memory limit.
set_option Elab.async false

variable {account : Prop} {s t u : State} {n : ChannelNo}

/-! ### The ranges between two states -/

/-- Between `s` and `t` the ranges are kept, those of the fetches where `account` holds. -/
structure Ranges (account : Prop) (s t : State) : Prop where
  stall : StallInv s → StallInv t
  fetch : account → FetchInv s → FetchInv t
  range : RangeInv s → RangeInv t

theorem Ranges.refl (s : State) : Ranges account s s := ⟨id, fun _ => id, id⟩

theorem Ranges.trans (h : Ranges account s t) (g : Ranges account t u) : Ranges account s u :=
  ⟨g.stall ∘ h.stall, fun a => g.fetch a ∘ h.fetch a, g.range ∘ h.range⟩

theorem Ranges.of_tables (channels : t.channels = s.channels := by rfl)
    (streak : s.port.streakLength ≤ 8 → t.port.streakLength ≤ 8 := by exact id)
    (queue : QueueFits s.queue → QueueFits t.queue := by exact id)
    (timer : TimerFits s.timer → TimerFits t.timer := by exact id) : Ranges account s t where
  stall := by simp only [stallInv_iff, State.channel_of_channels _ _ channels, imp_self]
  fetch := by simp only [fetchInv_iff, State.channel_of_channels _ _ channels, imp_self, implies_true]
  range h := by
    obtain ⟨streak', queue', timer'⟩ := rangeInv_iff.mp h
    exact rangeInv_iff.mpr ⟨streak streak', queue queue', timer timer'⟩

theorem ChannelWork.ranges (w : ChannelWork account n s t) : Ranges account s t where
  stall h := stallInv_iff.mpr fun m => by
    have fits := stallInv_iff.mp h
    by_cases e : m = n
    · exact e ▸ w.stall (fits n)
    · exact (w.others m e).symm ▸ fits m
  fetch a h := fetchInv_iff.mpr fun m => by
    have fits := fetchInv_iff.mp h
    by_cases e : m = n
    · exact e ▸ w.fetch a (fits n)
    · exact (w.others m e).symm ▸ fits m
  range h := by
    obtain ⟨streak, queue, timer⟩ := rangeInv_iff.mp h
    exact rangeInv_iff.mpr ⟨w.streak ▸ streak, w.queue queue, w.timer ▸ timer⟩

theorem Beside.ranges (h : Beside s t) : Ranges account s t :=
  .of_tables h.channels (by rw [h.port]; exact id) (by rw [h.queue]; exact id) (by rw [h.timer]; exact id)

theorem Granted.ranges (h : Granted s t) : Ranges account s t := by
  induction h with
  | rests => exact .refl _
  | issues free issued =>
    obtain ⟨p, v, rfl⟩ := issued.frame
    exact .of_tables (streak := issued.streak)
  | refuses _ n k _ ih => exact (ChannelWork.enterFaulted _ n k).ranges.trans ih

theorem refreshInterrupts_beside (s : State) : Beside s (refreshInterrupts s) := {}

theorem finishEvent_ranges (s : State) : Ranges account s (finishEvent s) :=
  (((endDrain_beside s).trans (endWriteEntry_beside _)).trans (logWork_beside _)).ranges.trans <|
    (arbitrate_granted _).ranges.trans <| (logWork_beside _).ranges.trans <|
      (arbitrate_granted _).ranges.trans (refreshInterrupts_beside _).ranges

/-! ### The effect of an event before its end, and the whole of it -/

/-- What an event does before its end: it leaves nothing due at a channel, and keeps the ranges. -/
structure Effect (account : Prop) (s t : State) : Prop extends Ranges account s t where
  quiet : (∀ n, QuietAt s n) → ∀ n, QuietAt t n

/-- What a whole event keeps. -/
structure Kept (account : Prop) (s t : State) : Prop extends Ranges account s t where
  due : NothingDue s → NothingDue t
  levels : InterruptInv s → InterruptInv t

theorem Effect.trans (h : Effect account s t) (g : Effect account t u) : Effect account s u :=
  ⟨h.toRanges.trans g.toRanges, g.quiet ∘ h.quiet⟩

theorem quiet_of_tables (channels : t.channels = s.channels) (port : t.port = s.port)
    (quiet : ∀ n, QuietAt s n) (n : ChannelNo) : QuietAt t n :=
  (quiet n).of_agree (State.channel_of_channels _ _ channels) (.inl (channelInFlight_of_port port n))

theorem Beside.effect (h : Beside s t) : Effect account s t := ⟨h.ranges, h.quiet⟩

theorem Effect.of_tables (channels : t.channels = s.channels := by rfl) (port : t.port = s.port := by rfl)
    (queue : QueueFits s.queue → QueueFits t.queue := by exact id)
    (timer : t.timer = s.timer := by rfl) : Effect account s t where
  toRanges := .of_tables channels (by rw [port]; exact id) queue (by rw [timer]; exact id)
  quiet := quiet_of_tables channels port

/-- An operation on behalf of a channel that leaves nothing due at it. -/
theorem ChannelWork.effect (w : ChannelWork account n s t) (own : QuietAt t n) : Effect account s t :=
  ⟨w.ranges, fun quiet => w.quiet (fun m _ => quiet m) own⟩

/-- An event that has reached a channel goes on there (R52). -/
theorem ChannelWork.goesOn (w : ChannelWork account n s t) : Effect account s (Machine.carryOn n t) :=
  (w.trans (ChannelWork.carryOn t n)).effect (carryOn_quiet t n)

theorem enterFaulted_effect (s : State) (n : ChannelNo) (k : FaultKind) :
    Effect account s (enterFaulted n k s) :=
  (ChannelWork.enterFaulted s n k).effect (quietAt_enterFaulted s n k)

theorem Granted.effect (h : Granted s t) : Effect account s t := ⟨h.ranges, h.quiet⟩

theorem interruptInv_refresh (s : State) : InterruptInv (refreshInterrupts s) := ⟨rfl, rfl⟩

theorem Kept.refl (s : State) : Kept account s s := ⟨.refl s, id, id⟩

/-- Every event that has an end leaves nothing due (R106). -/
theorem Effect.finishEvent (e : Effect account s t) : Kept account s (finishEvent t) where
  toRanges := e.toRanges.trans (finishEvent_ranges t)
  due h := finishEvent_nothingDue (e.quiet h.quietAt)
  levels _ := interruptInv_refresh _

theorem ChannelWork.finishChannelEvent (w : ChannelWork account n s t) :
    Kept account s (finishChannelEvent n t) :=
  w.goesOn.finishEvent

/-- An event that only sets the levels at its end. -/
theorem Kept.refresh (r : Ranges account s t) (due : NothingDue s → NothingDue t) :
    Kept account s (refreshInterrupts t) where
  toRanges := r.trans (refreshInterrupts_beside t).ranges
  due h := (due h).refreshInterrupts
  levels _ := interruptInv_refresh t

/-- A row that acts where its condition holds, and changes nothing elsewhere. -/
theorem Kept.ite {p : Prop} [Decidable p] (acts : p → Kept account s t) :
    Kept account s (if p then t else s) := by
  split
  · next h => exact acts h
  · exact .refl s

end Sys2Proof.Machine
end

section
/-! SUPPORT. What the link and the completions keep (for O59 and O60), and which updates make nothing due. -/

namespace Sys2Proof.Machine

-- The proofs are elaborated in turn: side by side their threads outgrow the check's memory limit.
set_option Elab.async false

variable {account : Prop} {s t : State} {n : ChannelNo}

/-! ### The link (R50, R51) -/

theorem present_effect (s : State) (n : ChannelNo) (r : LinkRequest) : Effect account s (present n r s) :=
  (ChannelWork.putChannel s n _).goesOn

theorem raiseLines_effect (s : State) (n : ChannelNo) (r : LinkRequest) :
    Effect account s (raiseLines n r s) := .of_tables

theorem arrive_effect (s : State) (n : ChannelNo) (r : LinkRequest) : Effect account s (arrive n r s) := by
  unfold arrive
  split
  · exact .of_tables
  · split
    · exact .of_tables
    · exact (raiseLines_effect s n r).trans (present_effect _ n r)

theorem arriveFail_effect (s : State) (n : ChannelNo) : Effect account s (arriveFail n s) := by
  unfold arriveFail
  split
  · exact .of_tables
  · exact (raiseLines_effect s n _).trans (present_effect _ n _)

theorem lowerRequestValid_effect (s : State) (n : ChannelNo) :
    Effect account s (lowerRequestValid n s) := by
  unfold lowerRequestValid
  dsimp only
  split
  · split
    · exact .of_tables
    · next r _ =>
      exact Effect.trans (t := s.putSlot n { s.slot n with
        lines := some r, answerValid := false, early := none }) .of_tables (present_effect _ n r)
  · exact .of_tables

/-! ### Descriptor reads (R34 to R40) -/

/-- The descriptor accepted begins a block or follows a link, or faults the channel, from the run alone. -/
theorem fetchFits_acceptDescriptor (s : State) (n : ChannelNo) (words : List Word)
    (run : (s.channel n).linkOnlyRun ≤ 12) : FetchFits ((acceptDescriptor n words s).channel n) := by
  unfold acceptDescriptor
  split
  · exact fetchFits_enterFaulted s n _ run
  · rw [acceptTransfer, State.channel_putChannel_self]
    exact .of_not_inFetch rfl (by simp)
  · unfold acceptLinkOnly
    dsimp only
    split
    · next below =>
      refine fetchFits_followLink _ n _ ?_
      rw [State.channel_putChannel_self]
      show (s.channel n).linkOnlyRun + 1 ≤ 12
      bv_omega
    · exact fetchFits_enterFaulted _ n _ (by simpa using run)

theorem ChannelWork.acceptDescriptor (s : State) (n : ChannelNo) (words : List Word) :
    ChannelWork False n s (acceptDescriptor n words s) := by
  unfold Machine.acceptDescriptor
  split
  · exact .enterFaulted s n _
  · exact .putFetched s n _ fun _ => .of_zero rfl
  · unfold acceptLinkOnly
    dsimp only
    split
    · exact (putFetched s n _).trans (.followLink _ n _)
    · exact (putFetched s n _).trans (.enterFaulted _ n _)

/-- A word that arrives in FETCHING is kept, or is the last and the descriptor is accepted or refused. -/
theorem ChannelWork.descWordArrives (state : (s.channel n).state = .fetching) (w : Word) :
    ChannelWork account n s (descWordArrives n w s) := by
  have kept : ChannelWork False n s (keepDescWord n w s) := putFetched s n _
  unfold Machine.descWordArrives
  dsimp only
  split
  · refine ((kept.trans (putFetched _ n _)).trans (acceptDescriptor _ n _)).withFetch fun _ h => ?_
    exact fetchFits_acceptDescriptor _ n _ (by simpa [dropFetched, keepDescWord] using h.run)
  · next more =>
    refine kept.withFetch fun _ h => ?_
    have fetching : inFetch (s.channel n) := by simp [inFetch, state]
    have words := h.words fetching
    have early := h.progress state
    simp only [keepDescWord, State.channel_putChannel_self] at more ⊢
    refine ⟨fun _ => ?_, fun _ => ?_, fun _ => h.aligned fetching, h.run⟩
    · show ((s.channel n).fetched ++ [w]).length = ((s.channel n).fetchProgress + 1).toNat
      rw [List.length_append, words, List.length_singleton]
      bv_omega
    · show (s.channel n).fetchProgress + 1 < 4
      bv_omega

theorem ChannelWork.deliverDescRead (s : State) (n : ChannelNo) (r : BusRead)
    (counted : account → (s.channel n).state = .halting → (s.channel n).fetchProgress < 4) :
    ChannelWork account n s (deliverDescRead n r s) := by
  unfold Machine.deliverDescRead
  split
  · next fetching =>
    split
    · exact descWordArrives fetching _
    · exact enterFaulted s n _
  · next halting =>
    split
    · next w =>
      refine putChannel s n _ (fun h => ⟨h.bound, h.running⟩) fun a h => ?_
      have early := counted a halting
      refine ⟨fun fetching => ?_, fun e => ?_, h.aligned, h.run⟩
      · show ((s.channel n).fetched ++ [w]).length = ((s.channel n).fetchProgress + 1).toNat
        rw [List.length_append, h.words fetching, List.length_singleton]
        bv_omega
      · rw [halting] at e
        cases e
    · exact enterFaulted s n _
  · exact refl s

/-! ### Data transactions (R59, R60, R62) -/

theorem ChannelWork.deliverDataWrite (s : State) (n : ChannelNo) (r : BusWrite) :
    ChannelWork account n s (deliverDataWrite n r s) := by
  unfold Machine.deliverDataWrite
  split
  · split
    · exact putChannel s n _
    · exact enterFaulted s n _
  · exact refl s

theorem ChannelWork.deliverDataRead (s : State) (n : ChannelNo) (r : BusRead) :
    ChannelWork account n s (deliverDataRead n r s) := by
  unfold Machine.deliverDataRead
  split
  · split
    · exact putChannel s n _
    · exact enterFaulted s n _
  · exact refl s

/-! ### The handling of a completion (R106) -/

/-- The transaction of one channel, or of none, is in flight for no other. -/
theorem channelInFlight_of_requester {x : Transaction} (flight : s.port.inFlight = some x) {m : ChannelNo}
    (other : x.purpose.requester ≠ some m) : s.channelInFlight m = false := by
  simp [State.channelInFlight, flight, other]

/-- A port freed of a transaction that no channel waits for (R106, R110). -/
theorem freePort_effect (idle : ∀ m, s.channelInFlight m = false) : Effect account s (freePort s) where
  toRanges := .of_tables
  quiet h m := (h m).of_agree rfl (.inl (idle m).symm)

theorem ChannelWork.freePort {x : Transaction} (flight : s.port.inFlight = some x)
    (requester : x.purpose.requester = some n) : ChannelWork account n s (freePort s) where
  others _ _ := rfl
  flight m e := (channelInFlight_of_requester flight (by simpa [requester] using e.symm)).symm
  stall := id
  fetch _ := id
  streak := rfl
  queue := id
  timer := rfl

theorem Beside.work (h : Beside s t) : ChannelWork account n s t :=
  .of_tables h.channels h.port h.timer fun fits => h.queue ▸ fits

/-- A completion of a channel's transaction is handed back: delivered, or its end alone, or nothing (R106). -/
theorem handBack_effect {x : Transaction} (flight : s.port.inFlight = some x)
    (requester : x.purpose.requester = some n) {a : State} (marked : Beside (freePort s) a)
    {deliver : State → State} (delivered : x.delivery = .deliver → ChannelWork account n a (deliver a)) :
    Effect account s (handBack n x.delivery deliver a) := by
  have freed : ChannelWork account n s a := (ChannelWork.freePort flight requester).trans marked.work
  cases e : x.delivery with
  | deliver => exact (freed.trans (delivered e)).goesOn
  | discard => exact freed.goesOn
  | orphan =>
    refine (freePort_effect fun m => ?_).trans marked.effect
    simp [State.channelInFlight, flight, e]

/-- A read to be delivered to a HALTING channel is one of a fetch that lacks a word (R96, R107). -/
theorem AccountInv.fetchProgress_lt (h : AccountInv s) {a : PhysAddr}
    (flight : s.port.inFlight = some ⟨.descRead n, a, .deliver⟩) (state : (s.channel n).state = .halting) :
    (s.channel n).fetchProgress < 4 := by
  have fits := h.fits n _ flight rfl
  unfold transactionFits at fits
  rw [state] at fits
  cases held : (s.channel n).contents with
  | none => simpa [held] using fits
  | some x => simp [held] at fits

theorem completeDescRead_kept (s : State) (r : BusRead) : Kept (AccountInv s) s (completeDescRead r s) := by
  unfold completeDescRead
  split
  · next n a d flight =>
    refine (handBack_effect flight rfl (a := freePort s) {} fun delivered => ?_).finishEvent
    refine .deliverDescRead _ n r fun h state => ?_
    have delivered : d = .deliver := delivered
    subst delivered
    exact h.fetchProgress_lt flight state
  · exact .refl s

theorem completeDataWrite_kept (s : State) (r : BusWrite) : Kept account s (completeDataWrite r s) := by
  unfold completeDataWrite
  split
  · next n m p w a d flight =>
    have marked : Beside (freePort s)
        (if modifiedBy r d then setModified m p (freePort s) else freePort s) := by split <;> exact {}
    exact (handBack_effect flight rfl marked fun _ => .deliverDataWrite _ n r).finishEvent
  · exact .refl s

theorem completeDataRead_kept (s : State) (r : BusRead) : Kept account s (completeDataRead r s) := by
  unfold completeDataRead
  split
  · next n m p a d flight =>
    exact (handBack_effect flight rfl (a := freePort s) {} fun _ => .deliverDataRead _ n r).finishEvent
  · exact .refl s

theorem deliverMapRead_beside (s : State) (r : BusRead) : Beside s (deliverMapRead r s) := by
  unfold deliverMapRead
  split
  · unfold fillEntry
    dsimp only
    split <;> exact {}
  · exact {}
  · exact {}

theorem completeMapRead_kept (s : State) (r : BusRead) : Kept account s (completeMapRead r s) := by
  unfold completeMapRead
  split
  · next a d flight =>
    have freed : Effect account s (freePort s) :=
      freePort_effect fun m => channelInFlight_of_requester flight nofun
    split
    · exact (freed.trans (deliverMapRead_beside _ r).effect).finishEvent
    · exact freed.finishEvent
  · exact .refl s

/-- A record that becomes logged makes nothing due (R12, R140). -/
theorem markLogged_effect (s : State) (n : ChannelNo) : Effect account s (markLogged n s) := by
  unfold markLogged
  split
  · exact ⟨(ChannelWork.putChannel s n _).ranges, fun quiet =>
      (ChannelWork.putChannel (account := True) s n _).quiet (fun m _ => quiet m)
        ((quiet n).of_record (State.channel_putChannel_self s n _) (.inl rfl))⟩
  · exact .of_tables

theorem deliverLogWrite_effect (s : State) (r : BusWrite) : Effect account s (deliverLogWrite r s) := by
  unfold deliverLogWrite
  split
  · unfold logWordDone
    split
    · split
      · exact Effect.trans (markLogged_effect s _) .of_tables
      · unfold finishOverflowRecord
        dsimp only
        split <;> exact .of_tables
    · exact .of_tables
  · exact .of_tables
  · exact .of_tables

theorem completeLogWrite_kept (s : State) (r : BusWrite) : Kept account s (completeLogWrite r s) := by
  unfold completeLogWrite
  split
  · next w a d flight =>
    have freed : Effect account s (freePort s) :=
      freePort_effect fun m => channelInFlight_of_requester flight nofun
    split
    · exact (freed.trans (deliverLogWrite_effect _ r)).finishEvent
    · exact freed.finishEvent
  · exact .refl s

/-! ### Events without an end: what stays due -/

/-- The word of the record under way is there only for a channel that holds its fault record whole (R137). -/
theorem logRequest_none (h : logRequest s = none) (log : t.log = s.log)
    (fault : ∀ m, (t.channel m).fault = (s.channel m).fault ∨ (t.channel m).fault = none) :
    logRequest t = none := by
  unfold logRequest at h ⊢
  rw [log]
  split at h
  · rfl
  · simp only [Option.map_eq_none_iff] at h ⊢
    unfold underWayWord at h ⊢
    rw [log]
    split at h
    · cases h
    · next m _ =>
      rcases fault m with same | none
      · rw [same]
        exact h
      · rw [none]

theorem eligibleChannels_eq_nil : eligibleChannels s = [] ↔ ∀ n, eligibleRequest s n = none := by
  simp [eligibleChannels, List.filter_eq_nil_iff, mem_channelNumbers]

/-- An update that leaves the requests of the channels as they were leaves no grant to make. -/
theorem NothingDue.noGrant (h : NothingDue s) (port : t.port = s.port) (control : t.control = s.control)
    (loader : t.loader = s.loader) (written : logRequest s = none → logRequest t = none)
    (requests : ∀ n, eligibleRequest s n = none → eligibleRequest t n = none) : canGrant t = true →
      mapRequest t = none ∧ logRequest t = none ∧ eligibleChannels t = [] := by
  intro can
  rw [canGrant, port, control] at can
  obtain ⟨map, log, none⟩ := h.grant can
  have requests := eligibleChannels_eq_nil.mpr fun n => requests n (eligibleChannels_eq_nil.mp none n)
  rw [mapRequest, loader]
  exact ⟨map, written log, requests⟩

theorem NothingDue.logQuiet (h : NothingDue s) : LogQuiet s := ⟨h.logStop, h.ring, h.overflow⟩

theorem NothingDue.released (h : NothingDue s) : Released s := ⟨h.drain, h.rewrite⟩

/-- Nothing comes due by an update of the slots, the queue, the timer, the results and the operands of the
command port, the interrupts, or the entries of a map set. -/
theorem NothingDue.of_tables (h : NothingDue s) (channels : t.channels = s.channels := by rfl)
    (port : t.port = s.port := by rfl) (control : t.control = s.control := by rfl)
    (loader : t.loader = s.loader := by rfl) (log : t.log = s.log := by rfl)
    (command : t.command.inProgress = s.command.inProgress := by rfl)
    (sets : ∀ m, (t.mapSet m).state = (s.mapSet m).state := by exact fun _ => rfl) : NothingDue t := by
  have channel := fun n => State.channel_of_channels s n channels
  refine ChannelsRest.nothingDue ⟨h.released.of_command loader port (.inl command),
    quiet_of_tables channels port h.quietAt⟩ (h.logQuiet.of_agree log command)
    (h.noGrant port control loader (fun written => logRequest_none written log fun m => ?_) fun n none => ?_)
  · exact .inl (by rw [channel])
  · rw [eligibleRequest_congr (channel n) (channelInFlight_of_port port n) sets, none]

/-- A channel put in IDLE or DISABLED with no request standing has nothing due. -/
theorem NothingDue.putIdle (h : NothingDue s) (n : ChannelNo) {c : Channel}
    (state : c.state = .idle ∨ c.state = .disabled) (request : c.request = none)
    (fault : c.fault = (s.channel n).fault ∨ c.fault = none) : NothingDue (s.putChannel n c) := by
  have own : (s.putChannel n c).channel n = c := State.channel_putChannel_self s n c
  have other : ∀ m, m ≠ n → (s.putChannel n c).channel m = s.channel m := fun m =>
    State.channel_putChannel_of_ne s n m c
  have quiet : QuietAt (s.putChannel n c) n :=
    { toAtRest := .of_answering (by rw [own]; rcases state with e | e <;> rw [e] <;> rfl)
        (leaveAbortingDue_of_state _ n (by rw [own]; rcases state with e | e <;> simp [e]))
      request := by simp [requestDue, own, request] }
  refine ChannelsRest.nothingDue ⟨h.released.of_command rfl rfl (.inl rfl), fun m => ?_⟩
    (h.logQuiet.of_agree rfl rfl)
    (h.noGrant rfl rfl rfl (fun written => logRequest_none written rfl fun m => ?_) fun m none => ?_)
  all_goals by_cases e : m = n
  · exact e ▸ quiet
  · exact (h.quietAt m).of_agree (other m e) (.inl rfl)
  · rw [e, own]
    exact fault
  · exact .inl (by rw [other m e])
  · rw [e]
    apply eligibleRequest_of_state <;> rw [own] <;> rcases state with e | e <;> simp [e]
  · rw [eligibleRequest_congr (other m e) rfl fun _ => rfl, none]

/-- A channel that leaves the fault order list gives the log writer no record to begin. -/
theorem NothingDue.unlist (h : NothingDue s) (n : ChannelNo) :
    NothingDue { s with log := { s.log with faultOrder := s.log.faultOrder.erase n } } := by
  have erased : ∀ l : List ChannelNo, l.head? = none → (l.erase n).head? = none := fun l e => by
    rw [List.head?_eq_none_iff.mp e]
    rfl
  have log : LogQuiet { s with log := { s.log with faultOrder := s.log.faultOrder.erase n } } :=
    { stop := h.logStop
      ring := by
        have ring := h.ring
        unfold ringRecordDue at ring ⊢
        split at ring
        · next due => exact (if_pos due).trans (erased _ ring)
        · next due => exact if_neg due
      overflow := by
        have overflow := h.overflow
        unfold overflowRecordDue at overflow ⊢
        split at overflow
        · next due => exact (if_pos due).trans (erased _ overflow)
        · next due => exact if_neg due }
  exact ChannelsRest.nothingDue ⟨h.released.of_command rfl rfl (.inl rfl),
    quiet_of_tables (s := s) rfl rfl h.quietAt⟩ log h.grant

end Sys2Proof.Machine
end

section
/-! SUPPORT. What the host commands keep (for O59 and O60). -/

namespace Sys2Proof.Machine

-- The proofs are elaborated in turn: side by side their threads outgrow the check's memory limit.
set_option Elab.async false

variable {account : Prop} {s t : State} {n : ChannelNo}

/-! ### A command that completes on the event of its write -/

/-- A request that would be answered on its arrival does not stand (R53, R54). -/
theorem NothingDue.no_request (h : NothingDue s) (state : answersAtOnce (s.channel n).state = true) :
    (s.channel n).request = none := by
  cases request : (s.channel n).request with
  | none => rfl
  | some r =>
    have other : (s.channel n).state = .running → ∀ d, (s.channel n).contents ≠ some (.transfer d) :=
      fun running => by rw [running] at state; exact absurd state Bool.false_ne_true
    have due := h.request n
    rw [requestDue_waiting request other, state] at due
    exact absurd due (by simp)

theorem badStateUnless_none {b : Bool} : badStateUnless b = none ↔ b = true := by
  cases b <;> simp [badStateUnless]

section Commands

variable (idle : PortIdle s)
include idle

theorem NothingDue.afterCommand (h : NothingDue s) (code : BitVec 8) (r : ResultCode) (x y z : Word) :
    NothingDue (afterCommand code r x y z s) :=
  h.of_tables (command := idle.symm)

theorem afterCommand_kept (code : BitVec 8) (r : ResultCode) (x y z : Word) :
    Kept account s (refreshInterrupts (afterCommand code r x y z s)) :=
  .refresh .of_tables fun h => h.afterCommand idle code r x y z

/-! ### The channel commands (R15 to R27) -/

/-- A command that puts a channel, in which no request can stand, in IDLE or DISABLED. -/
theorem putIdle_keeps (n : ChannelNo) (c : Channel) (code : BitVec 8)
    (before : answersAtOnce (s.channel n).state = true) (state : c.state = .idle ∨ c.state = .disabled)
    (request : c.request = (s.channel n).request) (fault : c.fault = (s.channel n).fault ∨ c.fault = none)
    (counter : c.stallCounter = 0) (run : c.linkOnlyRun = (s.channel n).linkOnlyRun ∨ c.linkOnlyRun = 0) :
    Ranges account s ((afterCommand code .ok 0 0 0 s).putChannel n c) ∧
      (NothingDue s → NothingDue ((afterCommand code .ok 0 0 0 s).putChannel n c)) := by
  have put : ChannelWork account n (afterCommand code .ok 0 0 0 s)
      ((afterCommand code .ok 0 0 0 s).putChannel n c) := by
    refine .putChannel _ n c (fun _ => .of_zero counter) fun _ h => .of_not_inFetch ?_ ?_
    · rcases state with e | e <;> simp [inFetch, e]
    · rcases run with same | zero
      · exact same ▸ h.run
      · simp [zero]
  exact ⟨Ranges.trans .of_tables put.ranges, fun h =>
    (h.afterCommand idle code .ok 0 0 0).putIdle n state (request.trans (h.no_request before)) fault⟩

theorem takeBind_kept (check : stateCheck (latch .bind s) s = none) :
    Kept account s (takeBind (latch .bind s) (duringCommand .bind s)) := by
  have state : (s.channel (channelOfOperand s.command.operandA)).state = .disabled ∨
      (s.channel (channelOfOperand s.command.operandA)).state = .idle := by
    simpa [stateCheck, latch, badStateUnless_none] using check
  obtain ⟨ranges, due⟩ := putIdle_keeps (account := account) idle (channelOfOperand s.command.operandA)
    { s.channel (channelOfOperand s.command.operandA) with
      state := .idle
      mapSet := some (setOfOperand s.command.operandB)
      stallLimit := s.command.operandC.setWidth 8
      stallCounter := 0 }
    0x01 (by rcases state with e | e <;> rw [e] <;> rfl) (.inl rfl) rfl (.inl rfl) rfl (.inl rfl)
  exact .refresh ranges due

theorem takeUnbind_kept (check : stateCheck (latch .unbind s) s = none) :
    Kept account s (takeUnbind (latch .unbind s) (duringCommand .unbind s)) := by
  have state : (s.channel (channelOfOperand s.command.operandA)).state = .idle ∧
      (s.channel (channelOfOperand s.command.operandA)).pendingEvent = none := by
    simpa [stateCheck, latch, badStateUnless_none] using check
  obtain ⟨ranges, due⟩ := putIdle_keeps (account := account) idle (channelOfOperand s.command.operandA)
    { Channel.reset with request := (s.channel (channelOfOperand s.command.operandA)).request }
    0x02 (by rw [state.1]; rfl) (.inr rfl) rfl (.inr rfl) rfl (.inr rfl)
  exact .refresh ranges due

/-- A cleared channel leaves the fault order list (R27). -/
theorem takeClearFault_kept (check : stateCheck (latch .clearFault s) s = none) :
    Kept account s (takeClearFault (latch .clearFault s) (duringCommand .clearFault s)) := by
  have state : (s.channel (channelOfOperand s.command.operandA)).state = .faulted := by
    by_contra other
    have fails := (clearFaultCheck_iff _ s.log.state .badState).mpr (.inl ⟨rfl, other⟩)
    exact nomatch fails.symm.trans check
  obtain ⟨ranges, due⟩ := putIdle_keeps (account := account) idle (channelOfOperand s.command.operandA)
    (s.channel (channelOfOperand s.command.operandA)).toCleared 0x07 (by rw [state]; rfl) (.inl rfl) rfl
    (.inr rfl) rfl (.inr rfl)
  exact .refresh (ranges.trans .of_tables) fun h => (due h).unlist (channelOfOperand s.command.operandA)

/-! ### The commands that report (R28, R93, R94) -/

theorem takeReadChannel_kept : Kept account s
    (takeReadChannel (latch .readChannel s) (duringCommand .readChannel s)) :=
  afterCommand_kept idle _ .ok _ _ _

theorem takeReadEntry_kept : Kept account s
    (takeReadEntry (latch .readEntry s) (duringCommand .readEntry s)) :=
  afterCommand_kept idle _ .ok _ _ _

theorem takeProbe_kept : Kept account s (takeProbe (latch .probe s) (duringCommand .probe s)) :=
  afterCommand_kept idle _ .ok _ _ _

end Commands

/-! ### START and HALT (R17, R18) -/

/-- A command taken for a channel, on an event that reaches it. -/
theorem ChannelWork.taken {cmd : HostCommand} (w : ChannelWork account n (duringCommand cmd s) t) :
    Kept account s (Machine.finishChannelEvent n t) :=
  (ChannelWork.trans .of_tables w).finishChannelEvent

theorem ChannelWork.completeCommand (s : State) (n : ChannelNo) (r : ResultCode) :
    ChannelWork account n s (completeCommand r s) := .of_tables

/-- A link-only run begins (R17). -/
theorem ChannelWork.beginRun (s : State) (n : ChannelNo) :
    ChannelWork account n s (s.putChannel n { s.channel n with linkOnlyRun := 0, short := false }) :=
  putChannel s n _ (fun h => ⟨h.bound, h.running⟩) fun _ h => ⟨h.words, h.progress, h.aligned, by simp⟩

/-- A channel begins a fetch where START names it (R17). -/
theorem takeStart_kept (range : operandsInRange (latch .start s) s = true) :
    Kept account s (takeStart (latch .start s) (duringCommand .start s)) := by
  have aligned : aligned4 (s.command.operandB.setWidth 24) = true := by
    have multiple : s.command.operandB.toNat % 4 = 0 := by
      simpa [latch] using ((operandsInRange_iff s .start).mp range).2.2
    rw [aligned4_iff, BitVec.toNat_setWidth]
    omega
  exact ((ChannelWork.completeCommand _ _ .ok).trans
    ((ChannelWork.beginRun _ _).trans (.enterFetching _ _ aligned))).taken

/-- A halted fetch stays as it stands (R18). -/
theorem ChannelWork.halt (state : (s.channel n).state = .fetching ∨ (s.channel n).state = .running) :
    ChannelWork account n s (s.putChannel n { s.channel n with
      state := .halting
      resume := some (if (s.channel n).state = .running then ResumeState.running else .fetching) }) := by
  refine putChannel s n _ (fun h => .of_state (by simp) h.bound) fun _ h => ?_
  rcases state with fetching | running
  · have fetches : inFetch (s.channel n) := by simp [inFetch, fetching]
    exact ⟨fun _ => h.words fetches, nofun, fun _ => h.aligned fetches, h.run⟩
  · exact .of_not_inFetch (by simp [inFetch, running]) h.run

theorem takeHalt_kept (check : stateCheck (latch .halt s) s = none) :
    Kept account s (takeHalt (latch .halt s) (duringCommand .halt s)) := by
  refine (ChannelWork.halt ?_).taken
  simpa [stateCheck, latch, badStateUnless_none] using check

/-! ### CONTINUE and ABORT (R22 to R24) -/

/-- A fetch that starts again does so where it stood (R22). -/
theorem ChannelWork.restartFetch (fetches : account → inFetch (s.channel n)) :
    ChannelWork account n s (restartFetch n s) := by
  rw [restartFetch_eq]
  refine (discardTransaction s n).trans (putChannel _ n _ ?_ ?_)
  · rw [channel_discardTransaction]
    exact fun h => .of_state nofun h.bound
  · rw [channel_discardTransaction]
    exact fun a h => .of_begun rfl rfl (h.aligned (fetches a)) h.run

/-- A HALTED channel that does not return to RUNNING is halted in a fetch (R1, R18). -/
theorem inFetch_of_contentsFit {c : Channel} (fits : contentsFit c) (halted : c.state = .halted)
    (other : c.resume ≠ some .running) : inFetch c := by
  unfold contentsFit at fits
  rw [halted] at fits
  rcases e : c.resume with _ | (_ | _)
  · rw [e] at fits
    cases fits
  · simp [inFetch, halted, e]
  · exact absurd e other

theorem ChannelWork.continueFrom (fits : account → contentsFit (s.channel n)) :
    ChannelWork account n s (continueFrom n s) := by
  unfold Machine.continueFrom
  dsimp only
  split
  · exact putChannel s n _ (fun _ => .of_zero rfl) fun _ h => .of_not_inFetch rfl h.run
  · next halted other =>
    exact restartFetch fun a => inFetch_of_contentsFit (fits a) halted other
  · exact settleSelect s n _
  · next fetching =>
    exact restartFetch fun _ => by simp [inFetch, fetching]
  · exact refl s

theorem takeContinue_kept (s : State) : Kept (AccountInv s) s
    (takeContinue (latch .continueChannel s) (duringCommand .continueChannel s)) :=
  ((ChannelWork.completeCommand _ _ .ok).trans (.continueFrom fun h => h.contents _)).taken

theorem ChannelWork.leaveWaitList (s : State) (n : ChannelNo) :
    ChannelWork account n s (leaveWaitList n s) :=
  .of_tables (queue := fun h => ⟨h.headAge, h.threshold⟩)

theorem ChannelWork.enterAborting (s : State) (n : ChannelNo) :
    ChannelWork account n s (enterAborting n s) :=
  (turnAway s n).trans <| (discardTransaction _ n).trans <| (leaveWaitList _ n).trans <|
    putAside _ n _ (by simp [Channel.toAborting]) rfl

theorem takeAbort_kept (s : State) : Kept account s
    (takeAbort (latch .abort s) (duringCommand .abort s)) :=
  (ChannelWork.enterAborting _ _).taken

/-! ### The map and the log commands (R84, R90, R147 to R149) -/

theorem takeLoadMap_kept (s : State) :
    Kept account s (takeLoadMap (latch .loadMap s) (duringCommand .loadMap s)) := by
  unfold takeLoadMap
  dsimp only
  split <;> exact Effect.finishEvent .of_tables

theorem takeSetLog_kept (s : State) :
    Kept account s (takeSetLog (latch .setLog s) (duringCommand .setLog s)) := by
  unfold takeSetLog
  exact Effect.finishEvent .of_tables

theorem takeLogConsumed_kept (s : State) :
    Kept account s (takeLogConsumed (latch .logConsumed s) (duringCommand .logConsumed s)) := by
  unfold takeLogConsumed
  exact Effect.finishEvent .of_tables

/-! ### The commands that can wait (R90, R148) -/

/-- A command that waits for what its rule names leaves nothing due. -/
theorem duringCommand_kept (cmd : HostCommand) (rewrite : releasedWriteEntry (duringCommand cmd s) = none)
    (log : NothingDue s → LogQuiet (duringCommand cmd s)) : Kept account s (duringCommand cmd s) where
  toRanges := .of_tables
  due h := ChannelsRest.nothingDue ⟨⟨h.drain, rewrite⟩,
    quiet_of_tables (s := s) rfl rfl h.quietAt⟩ (log h) h.grant
  levels h := ⟨h.events, h.intout⟩

theorem takeWriteEntry_kept (idle : PortIdle s) :
    Kept account s (takeWriteEntry (latch .writeEntry s) (duringCommand .writeEntry s)) := by
  unfold takeWriteEntry
  dsimp only
  split
  · next used =>
    refine duringCommand_kept .writeEntry ?_ fun h => ?_
    · exact if_neg (by simpa [latch] using used)
    · have waits : logStopWaits s = false := by
        simp only [logStopWaits, show s.command.inProgress = none from idle]
      exact h.logQuiet.of_waits rfl waits.symm
  · refine .refresh .of_tables fun h => h.of_tables (command := idle.symm) (sets := fun m => ?_)
    show ((duringCommand .writeEntry s).putSet _ _ |>.mapSet m).state = _
    rw [State.mapSet_putSet]
    split
    · next e => rw [e]; rfl
    · rfl

theorem logRequest_of_none (h : s.log.underWay = none) : logRequest s = none := by
  simp only [logRequest, h]

theorem takeLogStop_kept (s : State) :
    Kept account s (takeLogStop (latch .logStop s) (duringCommand .logStop s)) := by
  unfold takeLogStop
  split
  · next under =>
    exact duringCommand_kept .logStop rfl fun _ => .of_underWay under
  · next none =>
    have none : s.log.underWay = Option.none := Option.not_isSome_iff_eq_none.mp none
    refine .refresh .of_tables fun h => ?_
    refine ChannelsRest.nothingDue ⟨h.released.of_command rfl rfl (.inr rfl),
      quiet_of_tables (s := s) rfl rfl h.quietAt⟩ ⟨rfl, rfl, rfl⟩ (h.noGrant rfl rfl rfl
      (fun _ => logRequest_of_none none) fun _ => id)

/-! ### Presenting a command (R163 to R165) -/

/-- What the owner of a command that has passed its checks does. -/
theorem takeCommand_kept (idle : PortIdle s) (cmd : HostCommand)
    (range : operandsInRange (latch cmd s) s = true) (check : stateCheck (latch cmd s) s = none) :
    Kept (AccountInv s) s (takeCommand cmd (latch cmd s) (duringCommand cmd s)) := by
  cases cmd with
  | bind => exact takeBind_kept idle check
  | unbind => exact takeUnbind_kept idle check
  | start => exact takeStart_kept range
  | halt => exact takeHalt_kept check
  | continueChannel => exact takeContinue_kept s
  | abort => exact takeAbort_kept s
  | clearFault => exact takeClearFault_kept idle check
  | readChannel => exact takeReadChannel_kept idle
  | loadMap => exact takeLoadMap_kept s
  | writeEntry => exact takeWriteEntry_kept idle
  | readEntry => exact takeReadEntry_kept idle
  | probe => exact takeProbe_kept idle
  | setLog => exact takeSetLog_kept s
  | logStop => exact takeLogStop_kept s
  | logConsumed => exact takeLogConsumed_kept s

/-- A write to a BUSY command port only sets REFUSED (R164). -/
theorem discardCommand_kept (s : State) : Kept account s (discardCommand s) where
  toRanges := .of_tables
  due h := h.of_tables
  levels h := ⟨h.events, h.intout⟩

theorem presentCommand_kept (s : State) (cmd : HostCommand) :
    Kept (AccountInv s) s (presentCommand cmd (takeCommand cmd) s) := by
  by_cases idle : PortIdle s
  · cases check : commandCheck (latch cmd s) s with
    | some r =>
      rw [presentCommand_refused s cmd _ idle r check]
      exact afterCommand_kept idle _ _ _ _ _
    | none =>
      rw [presentCommand_taken s cmd _ idle check]
      unfold commandCheck at check
      split at check
      · next range => exact takeCommand_kept idle cmd range check
      · cases check
  · rw [presentCommand_busy s cmd _ idle]
    exact discardCommand_kept s

theorem presentUnknown_kept (s : State) (code : BitVec 8) : Kept account s (presentUnknown code s) := by
  unfold presentUnknown
  split
  · exact discardCommand_kept s
  · next free => exact afterCommand_kept (by simpa [PortIdle] using free) code .badCommand 0 0 0

theorem writeCommand_kept (s : State) (w : Word) : Kept (AccountInv s) s (writeCommand w s) := by
  unfold writeCommand
  split
  · exact presentCommand_kept s _
  · exact presentUnknown_kept s _

end Sys2Proof.Machine
end

section
/-! SUPPORT. Every step leaves nothing due (O59), and keeps the ranges of the counters and the levels of EVENTS
and INTOUT (O60). -/

namespace Sys2Proof.Machine

-- The proofs are elaborated in turn: side by side their threads outgrow the check's memory limit.
set_option Elab.async false

variable {account : Prop} {s t : State} {n : ChannelNo}

/-! ### The event queue and the interrupts (R118 to R128) -/

theorem ChannelWork.movePending (s : State) (n : ChannelNo) (r : EventRecord) :
    ChannelWork account n s (movePending n r s) :=
  (putChannel s n { s.channel n with pendingEvent := none }).trans
    (.of_tables (queue := fun h => ⟨fun e => absurd e (by simp [Machine.movePending]), h.threshold⟩))

theorem removeHead_effect (s : State) (w : Word) :
    Effect account s (removeHead { s with readData := w }) :=
  .of_tables (queue := fun h => ⟨fun _ => rfl, h.threshold⟩)

theorem popEvent_kept (s : State) : Kept account s (popEvent s) := by
  unfold popEvent
  split
  · exact { toRanges := .of_tables, due := fun h => h.of_tables, levels := fun h => ⟨h.events, h.intout⟩ }
  · next r rest _ =>
    have removed := removeHead_effect (account := account) s r.word1
    dsimp only
    split
    · exact .refresh removed.toRanges fun h => h.of_tables
    · exact (removed.trans (ChannelWork.movePending _ _ _).goesOn).finishEvent

theorem clampThreshold_range (x : BitVec 8) : 1 ≤ clampThreshold x ∧ clampThreshold x ≤ 24 := by
  unfold clampThreshold
  split
  · decide
  · split
    · decide
    · constructor <;> bv_omega

theorem writeEventSettings_kept (s : State) (w : Word) : Kept account s (writeEventSettings w s) :=
  .refresh (.of_tables (queue := fun h => ⟨h.headAge, clampThreshold_range _⟩)) fun h => h.of_tables

theorem clearInterrupts_kept (s : State) (w : Word) : Kept account s (clearInterrupts w s) :=
  .refresh .of_tables fun h => h.of_tables

/-! ### The interval timer (R153 to R159) -/

theorem writeTimerPeriod_kept (s : State) (w : Word) : Kept account s (writeTimerPeriod w s) := by
  unfold writeTimerPeriod
  split
  · exact .refl s
  · next period =>
    have fits : TimerFits { s.timer with period := w.setWidth 16, prescaler := 0 } :=
      ⟨period, show 0 < w.setWidth 16 by bv_omega⟩
    exact { toRanges := .of_tables (timer := fun _ => fits), due := fun h => h.of_tables
            levels := fun h => ⟨h.events, h.intout⟩ }

/-- Channels that fault one after the other keep what each fault keeps (R159). -/
theorem faultStalled_effect (due : List ChannelNo) : ∀ s : State, Effect account s (faultStalled due s) := by
  induction due with
  | nil => exact fun s => ⟨.refl s, id⟩
  | cons n rest ih => exact fun s => (enterFaulted_effect s n .stallTimeout).trans (ih _)

/-- Once the channels at their limits have faulted, every counter is below its limit (R158, R159). -/
theorem faultStalled_stallFits (due : List ChannelNo) : ∀ s : State,
    (∀ n, (s.channel n).stallCounter ≤ (s.channel n).stallLimit) →
    (∀ n, n ∉ due → StallFits (s.channel n)) → ∀ n, StallFits ((faultStalled due s).channel n) := by
  induction due with
  | nil => exact fun s _ fits n => fits n (List.not_mem_nil)
  | cons m rest ih =>
    intro s bound fits
    refine ih (enterFaulted m .stallTimeout s) (fun n => ?_) fun n fresh => ?_
    all_goals
      rw [channel_enterFaulted]
      split
    · exact bound m
    · exact bound n
    · exact .of_state nofun (bound m)
    · next other => exact fits n (by simp [other, fresh])

/-- Only a RUNNING channel is ready for its peripheral (R157). -/
theorem running_of_ready {c : Channel} (h : readyForPeripheral c = true) : c.state = .running := by
  unfold readyForPeripheral at h
  split at h
  · next running _ => exact running
  · cases h

/-- A counter that a tick raises stays within its limit, and a channel that comes to it is stalled (R158). -/
theorem tickChannel_stallFits {c : Channel} (h : StallFits c) :
    (tickChannel c).stallCounter ≤ (tickChannel c).stallLimit ∧
      (stalled (tickChannel c) = false → StallFits (tickChannel c)) := by
  unfold tickChannel
  split
  · next raised =>
    obtain ⟨on, ready⟩ := raised
    have below := h.running (running_of_ready ready) on
    have bound : c.stallCounter + 1 ≤ c.stallLimit := by bv_omega
    refine ⟨bound, fun more => ⟨bound, fun _ _ => ?_⟩⟩
    have ready : readyForPeripheral { c with stallCounter := c.stallCounter + 1 } = true := ready
    rw [stalled, ready] at more
    have short : c.stallLimit ≠ 0 → c.stallCounter + 1 ≠ c.stallLimit := by simpa using more
    have short := short on
    show c.stallCounter + 1 < c.stallLimit
    bv_omega
  · exact ⟨h.bound, fun _ => h⟩

/-- A tick changes a record in its stall counter alone (R158). -/
theorem tickChannel_eq (c : Channel) : ∃ x, tickChannel c = { c with stallCounter := x } := by
  unfold tickChannel
  split
  · exact ⟨_, rfl⟩
  · exact ⟨c.stallCounter, rfl⟩

/-- The part when a tick has been taken by the timer, the channels and the queue (R154). -/
def ticked (s : State) : State :=
  { s with
    timer := { s.timer with tickCount := s.timer.tickCount + 1 }
    channels := mapTable tickChannel s.channels
    queue := tickHeadAge s.queue }

theorem tickEvent_eq (s : State) : tickEvent s = finishEvent (timeOutStalled (ticked s)) := rfl

theorem channel_ticked (s : State) (n : ChannelNo) : (ticked s).channel n = tickChannel (s.channel n) :=
  getElem_mapTable tickChannel s.channels n.val n.isLt

theorem tickHeadAge_fits {q : EventQueue} (h : QueueFits q) : QueueFits (tickHeadAge q) := by
  unfold tickHeadAge
  split
  · exact h
  · next other =>
    refine ⟨fun empty => ?_, h.threshold⟩
    have empty : q.records = [] := empty
    simp [empty] at other

theorem ticked_quiet (quiet : ∀ n, QuietAt s n) (n : ChannelNo) : QuietAt (ticked s) n := by
  obtain ⟨x, e⟩ := tickChannel_eq (s.channel n)
  exact (quiet n).of_record ((channel_ticked s n).trans e) (.inl rfl)

theorem ticked_fetch (h : FetchInv s) : FetchInv (ticked s) := fetchInv_iff.mpr fun n => by
  obtain ⟨x, e⟩ := tickChannel_eq (s.channel n)
  have fits := fetchInv_iff.mp h n
  rw [channel_ticked, e]
  exact ⟨fits.words, fits.progress, fits.aligned, fits.run⟩

theorem ticked_range (h : RangeInv s) : RangeInv (ticked s) := by
  obtain ⟨streak, queue, timer⟩ := rangeInv_iff.mp h
  exact rangeInv_iff.mpr ⟨streak, tickHeadAge_fits queue, ⟨timer.period, timer.prescaler⟩⟩

/-- The channels at their limits after a tick fault on it, so that no counter is left at its limit (R159). -/
theorem timeOutStalled_stall (h : StallInv s) : StallInv (timeOutStalled (ticked s)) := by
  have fits := stallInv_iff.mp h
  have order := orderByRank_perm (Config.tickOrder (ticked s).tickDraws) (stalledChannels (ticked s))
  refine stallInv_iff.mpr (faultStalled_stallFits _ _ (fun n => ?_) fun n fresh => ?_)
  all_goals rw [State.channel_with_tickDraws, channel_ticked]
  · exact (tickChannel_stallFits (fits n)).1
  · refine (tickChannel_stallFits (fits n)).2 (Bool.eq_false_iff.mpr fun due => fresh ?_)
    refine order.mem_iff.mpr (List.mem_filter.mpr ⟨mem_channelNumbers n, ?_⟩)
    rwa [channel_ticked]

theorem timeOutStalled_effect (s : State) : Effect account s (timeOutStalled (ticked s)) := by
  have faulted : Effect account (ticked s) (timeOutStalled (ticked s)) :=
    Effect.trans (t := { ticked s with tickDraws := (ticked s).tickDraws + 1 }) .of_tables
      (faultStalled_effect _ _)
  exact { stall := timeOutStalled_stall
          fetch := fun a h => faulted.fetch a (ticked_fetch h)
          range := fun h => faulted.range (ticked_range h)
          quiet := fun h => faulted.quiet (ticked_quiet h) }

theorem tickEvent_kept (s : State) : Kept account s (tickEvent (restartPrescaler s)) := by
  have restarted : Effect account s (restartPrescaler s) :=
    { toRanges := .of_tables (timer := fun h => ⟨h.period, show 0 < s.timer.period by
        have := h.period
        bv_omega⟩)
      quiet := quiet_of_tables rfl rfl }
  rw [tickEvent_eq]
  exact (restarted.trans (timeOutStalled_effect _)).finishEvent

theorem microsecond_kept (s : State) : Kept account s (microsecond s) := by
  unfold microsecond
  split
  · next early =>
    have fits : TimerFits s.timer → TimerFits { s.timer with prescaler := s.timer.prescaler + 1 } :=
      fun h => ⟨h.period, show s.timer.prescaler + 1 < s.timer.period by bv_omega⟩
    exact { toRanges := .of_tables (timer := fits), due := fun h => h.of_tables
            levels := fun h => ⟨h.events, h.intout⟩ }
  · exact tickEvent_kept s

/-! ### Resets and the register window -/

/-- Whatever stood before, a reset part keeps the ranges of the reset state (R2). -/
theorem kept_of_reset (ranges : Ranges True State.reset t) (due : NothingDue t) (levels : InterruptInv t) :
    Kept account s t where
  stall _ := ranges.stall stallInv_reset
  fetch _ _ := ranges.fetch trivial fetchInv_reset
  range _ := ranges.range rangeInv_reset
  due _ := due
  levels _ := levels

theorem nothingDue_reset : NothingDue State.reset := nothingDue_of_check _ (by decide)

theorem powerOn_kept (s : State) : Kept account s (powerOn s) :=
  kept_of_reset .of_tables (nothingDue_reset.of_tables (t := powerOn s))
    ⟨interruptInv_reset.events, interruptInv_reset.intout⟩

/-- The transaction that a soft reset leaves in flight is an orphan, of no channel (R110). -/
theorem channelInFlight_softReset (s : State) (n : ChannelNo) : (softReset s).channelInFlight n = false := by
  show State.channelInFlight { s with port := portAfterSoftReset s.port } n = false
  unfold State.channelInFlight portAfterSoftReset
  cases s.port.inFlight with
  | none => rfl
  | some x => simp

theorem softReset_kept (s : State) : Kept account s (softReset s) := by
  refine kept_of_reset .of_tables ?_ ⟨interruptInv_reset.events, interruptInv_reset.intout⟩
  have channel : ∀ n, (softReset s).channel n = State.reset.channel n :=
    fun n => (channel_of_replicate rfl n).trans (channel_reset n).symm
  refine ChannelsRest.nothingDue ⟨⟨rfl, rfl⟩, fun n => ?_⟩ ⟨rfl, rfl, rfl⟩ fun can => ?_
  · exact (nothingDue_reset.quietAt n).of_agree (channel n) (.inl (channelInFlight_softReset s n))
  · simp [canGrant, softReset, Control.reset] at can

theorem writeControl_kept (s : State) (w : Word) : Kept account s (writeControl w s) := by
  unfold writeControl
  split
  · exact softReset_kept s
  · exact Effect.finishEvent .of_tables

/-- A write to an operand register is seen by the next command alone (R163). -/
theorem writeOperand_kept (s : State) {c : CommandPort} (command : c.inProgress = s.command.inProgress) :
    Kept account s { s with command := c } where
  toRanges := .of_tables
  due h := h.of_tables (command := command)
  levels h := ⟨h.events, h.intout⟩

theorem windowWrite_kept (s : State) (offset : BitVec 5) (w : Word) :
    Kept (AccountInv s) s (windowWrite offset w s) := by
  unfold windowWrite
  split
  · exact writeControl_kept s w
  · exact clearInterrupts_kept s w
  · exact writeCommand_kept s w
  · exact writeOperand_kept s rfl
  · exact writeOperand_kept s rfl
  · exact writeOperand_kept s rfl
  · exact writeEventSettings_kept s w
  · exact writeTimerPeriod_kept s w
  · exact .refl s

/-! ### Every command -/

/-- What every command keeps: nothing is left due, and the counters and levels stay as the rules give. -/
theorem exec_kept (s : State) (c : Instr) (run : exec c s = .next t) : Kept (AccountInv s) s t := by
  cases c <;> injection run with run <;> subst run
  case powerOnReset => exact powerOn_kept s
  case softReset w => exact softReset_kept s
  case offer n w => exact (arrive_effect s n _).finishEvent
  case ask n => exact (arrive_effect s n _).finishEvent
  case endBlock n => exact (arrive_effect s n _).finishEvent
  case fail n => exact (arriveFail_effect s n).finishEvent
  case requestValidFall n => exact (lowerRequestValid_effect s n).finishEvent
  case descReadComplete r => exact completeDescRead_kept s r
  case dataWriteComplete r => exact completeDataWrite_kept s r
  case dataReadComplete r => exact completeDataRead_kept s r
  case mapReadComplete r => exact completeMapRead_kept s r
  case logWriteComplete r => exact completeLogWrite_kept s r
  case grant => exact .ite fun _ => (arbitrate_granted s).effect.finishEvent
  case tick => exact tickEvent_kept s
  case stallTimeout n => exact .ite fun _ => (enterFaulted_effect s n _).finishEvent
  case ageCondition => exact .ite fun _ => .refresh (.refl s) id
  case bind => exact presentCommand_kept s .bind
  case unbind => exact presentCommand_kept s .unbind
  case start => exact presentCommand_kept s .start
  case halt => exact presentCommand_kept s .halt
  case continueChannel => exact presentCommand_kept s .continueChannel
  case abort => exact presentCommand_kept s .abort
  case clearFault => exact presentCommand_kept s .clearFault
  case readChannel => exact presentCommand_kept s .readChannel
  case loadMap => exact presentCommand_kept s .loadMap
  case writeEntry => exact presentCommand_kept s .writeEntry
  case readEntry => exact presentCommand_kept s .readEntry
  case probe => exact presentCommand_kept s .probe
  case setLog => exact presentCommand_kept s .setLog
  case logStop => exact presentCommand_kept s .logStop
  case logConsumed => exact presentCommand_kept s .logConsumed
  case unknownCommand w => exact writeCommand_kept s w
  case masterEnable w => exact writeControl_kept s w
  case interruptEnable w => exact writeControl_kept s w
  case interruptStatusClear w => exact clearInterrupts_kept s w
  case pop => exact popEvent_kept s
  case eventSettingsWrite w => exact writeEventSettings_kept s w
  case timerPeriodWrite w => exact writeTimerPeriod_kept s w
  case registerWrite offset w => exact windowWrite_kept s offset w
  case waitingRequestMet n => exact .ite fun _ => (ChannelWork.meetRequest s n).finishChannelEvent
  case waitingPost n =>
    exact .ite fun _ =>
      ((ChannelWork.resumeSettling s n).trans (.leaveHalting _ n)).finishChannelEvent
  case blockComplete n => exact .ite fun _ => (ChannelWork.completeBlock s n).finishChannelEvent
  case leaveHalting n => exact .ite fun _ => (ChannelWork.leaveHalting s n).finishChannelEvent
  case leaveAborting n => exact .ite fun _ => (ChannelWork.leaveAborting s n).finishChannelEvent
  case drainEnd => exact .ite fun _ => (endDrain_beside s).effect.finishEvent
  case writeEntryReplace => exact .ite fun _ => (endWriteEntry_beside s).effect.finishEvent
  case logRecordBegin => exact .ite fun _ => (beginRingRecord_beside s).effect.finishEvent
  case overflowRecordBegin => exact .ite fun _ => (beginOverflowRecord_beside s).effect.finishEvent
  case logStopComplete => exact .ite fun _ => (endLogStop_beside s).effect.finishEvent

/-- What every step keeps; taking the command from the queue of commands changes nothing else. -/
theorem step_kept (run : step s = .next t) : Kept (AccountInv s) s t := by
  rcases step_cases run with ⟨-, rfl⟩ | ⟨c, rest, -, run⟩
  · exact microsecond_kept s
  · have kept := exec_kept { s with pending := rest } c run
    exact
      { stall := fun h => kept.stall ⟨h.bound, h.running⟩
        fetch := fun a h => kept.fetch ⟨a.contents, a.staged, a.account, a.fits⟩
          ⟨h.words, h.progress, h.aligned, h.run⟩
        range := fun h => kept.range ⟨h.streak, h.headAge, h.threshold, h.period, h.prescaler⟩
        due := fun h => kept.due h.of_tables
        levels := fun h => kept.levels ⟨h.events, h.intout⟩ }

/-- Settles O59: at a channel that the event has reached, going on leaves nothing due, the others are left as
they were, and the end of the event leaves no record and no grant. -/
theorem nothingLeftDue : Obligations.NothingLeftDue :=
  fun _ _ quiet run => (step_kept run).due quiet

/-- Settles O60: record by record, with the account of the transaction in flight for a fetch that goes on. -/
theorem counterRangesKept : Obligations.CounterRangesKept :=
  fun _ _ run =>
    have kept := step_kept run
    ⟨kept.stall, kept.fetch, kept.range, kept.levels⟩

end Sys2Proof.Machine
end

section
/-! SUPPORT. What the arbiter comes to, with the kind of each refusal and the sort of transaction that it issues
(R79, R86, R99 to R104): the relation that the map sets (O57) and the frame of an event (O51) rest on. -/

namespace Sys2Proof.Machine

-- The proofs are elaborated in turn: side by side their threads outgrow the check's memory limit.
set_option Elab.async false

variable {s t u : State} {n : ChannelNo}

/-! ### Refusals and issued transactions -/

/-- The kinds of fault with which a translation refuses an access (R78). -/
def RefusalKind (k : FaultKind) : Prop :=
  k = .pageInvalid ∨ k = .pageBeyond ∨ k = .readDenied ∨ k = .writeDenied

theorem refusalKind_of_deniedBy {e : PageEntry} {a : Access} {k : FaultKind}
    (denied : deniedBy e a = some k) : RefusalKind k := by
  cases a <;> simp only [deniedBy, ite_eq_iff, reduceCtorEq, and_false, false_or, Option.some.injEq] at denied
  · exact .inr (.inr (.inl denied.2.symm))
  · exact .inr (.inr (.inr denied.2.symm))

theorem refusalKind_of_fails {x : MapSet} {logical : LogAddr} {a : Access} {k : FaultKind}
    (fails : translateAccess x logical a = .fails k) : RefusalKind k := by
  unfold translateAccess at fails
  dsimp only at fails
  split at fails
  · split at fails
    · split at fails
      · next denied => cases fails; exact refusalKind_of_deniedBy denied
      · cases fails
    · cases fails; exact .inl rfl
  · cases fails; exact .inr (.inl rfl)

/-- A transaction is issued between `s` and `t`: a map image read for a load in READING, a log write or a
descriptor read beside the sets, or a data transaction through a READY set, whose entry is marked (R81, R86,
R99). -/
inductive Issues (s : State) : State → Prop
  | beside (p : Port) (x : Transaction) (flight : p.inFlight = some x) (none : x.purpose.through = none)
      (map : x.purpose = .mapRead → ∃ l, s.loader = some l ∧ l.phase = .reading) :
      Issues s { s with port := p }
  | through (p : Port) (x : Transaction) (m : SetNo) (page : PageNo) (flight : p.inFlight = some x)
      (set : x.purpose.through = some (m, page)) (ready : (s.mapSet m).state = .ready) :
      Issues s (setReferenced m page { s with port := p })

/-- What the arbiter comes to from `s`: refused grants, each of which faults a RUNNING channel, and then a
transaction issued, or none (R79, R100, R104). -/
inductive Arbitrated : State → State → Prop
  | rests (s : State) : Arbitrated s s
  | issues {s t : State} (can : canGrant s = true) (issued : Issues s t) : Arbitrated s t
  | refuses {s t : State} (can : canGrant s = true) (n : ChannelNo) (k : FaultKind)
      (running : (s.channel n).state = .running) (kind : RefusalKind k)
      (rest : Arbitrated (enterFaulted n k s) t) : Arbitrated s t

/-! ### The grants of the arbiter -/

/-- A data request is eligible only while the set of its channel is READY (R99). -/
theorem readySet_of_eligible {r : ChannelRequest} (request : eligibleRequest s n = some r)
    (data : ∀ addr, r ≠ .desc addr) :
    ∃ m, (s.channel n).mapSet = some m ∧ (s.mapSet m).state = .ready := by
  unfold eligibleRequest at request
  split at request
  · cases request; exact absurd rfl (data _)
  · split at request
    · next ready =>
      unfold boundSetReady at ready
      split at ready
      · cases ready
      · next m bound => exact ⟨m, bound, by simpa using ready⟩
    · cases request
  · cases request

/-- A data request granted through a READY set is issued, or refused with the kind of the failed check. -/
theorem grantData_issues (n : ChannelNo) {m : SetNo} (ready : (s.mapSet m).state = .ready)
    (logical : LogAddr) (a : Access) (purpose : PageNo → Purpose)
    (set : ∀ p, (purpose p).through = some (m, p)) :
    (∃ t, grantData n m logical a purpose s = .issued t ∧ Issues s t) ∨
      ∃ k, RefusalKind k ∧ grantData n m logical a purpose s = .refused (enterFaulted n k s) := by
  unfold grantData
  split
  · next p addr _ => exact .inl ⟨_, rfl, .through _ _ m p rfl (set p) ready⟩
  · next k fails => exact .inr ⟨k, refusalKind_of_fails fails, rfl⟩

/-- An eligible request granted is issued, or its RUNNING channel faults (R79, R104). -/
theorem grantChannel_issues {r : ChannelRequest} (request : eligibleRequest s n = some r) :
    (∃ t, grantChannel n r s = .issued t ∧ Issues s t) ∨
      ∃ k, RefusalKind k ∧ (s.channel n).state = .running ∧
        grantChannel n r s = .refused (enterFaulted n k s) := by
  cases r with
  | desc addr => exact .inl ⟨_, rfl, .beside _ _ rfl rfl nofun⟩
  | read logical =>
    obtain ⟨m, bound, ready⟩ := readySet_of_eligible request (by simp)
    have running := eligibleRequest_running s n request (by simp)
    simp only [grantChannel, bound]
    rcases grantData_issues n ready logical .read (fun p => .dataRead n m p) fun _ => rfl with
      issued | ⟨k, kind, refused⟩
    · exact .inl issued
    · exact .inr ⟨k, kind, running, refused⟩
  | write logical w =>
    obtain ⟨m, bound, ready⟩ := readySet_of_eligible request (by simp)
    have running := eligibleRequest_running s n request (by simp)
    simp only [grantChannel, bound]
    rcases grantData_issues n ready logical .write (fun p => .dataWrite n m p w) fun _ => rfl with
      issued | ⟨k, kind, refused⟩
    · exact .inl issued
    · exact .inr ⟨k, kind, running, refused⟩

theorem canGrant_enterFaulted (n : ChannelNo) (k : FaultKind) (can : canGrant s = true) :
    canGrant (enterFaulted n k s) = true := by
  rw [enterFaulted_eq]
  simpa [canGrant, abandonedPort] using can

theorem grantChannels_arbitrated (k : Nat) : ∀ s : State, canGrant s = true →
    Arbitrated s (grantChannels k s) := by
  induction k with
  | zero => exact fun s _ => .rests s
  | succ k ih =>
    intro s can
    unfold grantChannels
    split
    · exact .rests s
    · split
      · exact .rests s
      · next n _ _ r request =>
        rcases grantChannel_issues request with ⟨t, granted, issued⟩ | ⟨kind, refusal, running, refused⟩
        · rw [granted]
          exact .issues can issued
        · rw [refused]
          exact .refuses can n kind running refusal (ih _ (canGrant_enterFaulted n kind can))

theorem mapRequest_some {addr : PhysAddr} (h : mapRequest s = some addr) :
    ∃ l, s.loader = some l ∧ l.phase = .reading := by
  unfold mapRequest at h
  split at h
  · cases h
  · next l loader =>
    split at h
    · next reading => exact ⟨l, loader, reading⟩
    · cases h

theorem arbitrate_arbitrated (s : State) : Arbitrated s (arbitrate s) := by
  unfold arbitrate
  split
  · next can =>
    split
    · next map => exact .issues can (.beside _ _ rfl rfl fun _ => mapRequest_some map)
    · split
      · exact .issues can (.beside _ _ rfl rfl nofun)
      · exact grantChannels_arbitrated 17 s can
  · exact .rests s

end Sys2Proof.Machine
end

section
/-! SUPPORT. The command in progress and the channels, and the load that it names, through every shared operation
and the end of an event (for O57, R162 and R167). -/

namespace Sys2Proof.Machine

-- The proofs are elaborated in turn: side by side their threads outgrow the check's memory limit.
set_option Elab.async false

variable {s t u : State} {n : ChannelNo} {c : Channel}

/-! ### What a command in progress names, in the midst of an event -/

/-- What a command in progress names, whether or not anything still holds it (R162). -/
def NamesWork (s : State) (l : Latched) : Prop :=
  match l.command with
  | .halt => (s.channel (channelOfOperand l.a)).state = .halting ∧ isChannel l.a
  | .abort => (s.channel (channelOfOperand l.a)).state = .aborting ∧ isChannel l.a
  | .loadMap => s.loader.isSome
  | .writeEntry | .logStop => True
  | _ => False

/-- The part of `BusyInv` that holds in the midst of an event too: the command in progress names its work, and
a channel in HALTING or ABORTING and a load have their command in progress (R162). -/
structure BusyFits (s : State) : Prop where
  named : ∀ l, s.command.inProgress = some l → NamesWork s l
  halting : ∀ n, (s.channel n).state = .halting → commandOn s .halt n
  aborting : ∀ n, (s.channel n).state = .aborting →
    commandOn s .abort n ∧ (s.channel n).pendingEvent = none
  loading : s.loader.isSome → ∃ l, s.command.inProgress = some l ∧ l.command = .loadMap

/-- Channel `n` is not about to leave HALTING or ABORTING (R19, R25). -/
structure StaysAt (s : State) (n : ChannelNo) : Prop where
  halting : leaveHaltingDue s n = false
  aborting : leaveAbortingDue s n = false

/-- A state in which a channel has no command of its own in progress. -/
def Working (x : ChannelState) : Prop := x ≠ .halting ∧ x ≠ .aborting

theorem commandOn_iff {cmd : HostCommand} : commandOn s cmd n = true ↔
    ∃ l, s.command.inProgress = some l ∧ l.command = cmd ∧ l.a.toNat = n.val := by
  unfold commandOn
  cases s.command.inProgress <;> simp

/-- An operand names one channel. -/
theorem channelOfOperand_of_isChannel {w : Word} (h : isChannel w = true) :
    w.toNat = (channelOfOperand w).val := by
  have small : w.toNat < 16 := by simpa [isChannel] using h
  exact (Nat.mod_eq_of_lt small).symm

/-- The channels with a command of their own in progress are all one channel. -/
theorem eq_of_commandOn {cmd cmd' : HostCommand} {m : ChannelNo} (h : commandOn s cmd n = true)
    (h' : commandOn s cmd' m = true) : m = n := by
  obtain ⟨l, flight, -, operand⟩ := commandOn_iff.mp h
  obtain ⟨l', flight', -, operand'⟩ := commandOn_iff.mp h'
  cases flight.symm.trans flight'
  exact Fin.ext (operand'.symm.trans operand)

/-- A command on a channel that holds is waited for: nothing has ended its wait (R19, R25, R167). -/
theorem BusyFits.waits (h : BusyFits s) (stays : ∀ n, StaysAt s n)
    (rewrite : releasedWriteEntry s = none) (stop : logStopDue s = false) {l : Latched}
    (flight : s.command.inProgress = some l) : waitsFor s l = true := by
  have named := h.named l flight
  unfold NamesWork at named
  unfold waitsFor
  cases cmd : l.command <;> simp only [cmd] at named
  case halt =>
    obtain ⟨state, operand⟩ := named
    have due := (stays (channelOfOperand l.a)).halting
    cases busy : s.channelInFlight (channelOfOperand l.a) <;>
      simp_all [leaveHaltingDue, Option.isSome_iff_ne_none]
  case abort =>
    obtain ⟨state, operand⟩ := named
    have due := (stays (channelOfOperand l.a)).aborting
    have slot := (h.aborting _ state).2
    cases busy : s.channelInFlight (channelOfOperand l.a) <;> simp_all [leaveAbortingDue]
  case loadMap => exact named
  case writeEntry => simpa [releasedWriteEntry, flight, cmd] using rewrite
  case logStop =>
    simpa [logStopDue, logStopWaits, flight, cmd, Option.isSome_iff_ne_none] using stop

theorem BusyFits.busyInv (h : BusyFits s) (stays : ∀ n, StaysAt s n)
    (rewrite : releasedWriteEntry s = none) (stop : logStopDue s = false) : BusyInv s where
  waits _ := h.waits stays rewrite stop
  halting := h.halting
  aborting := h.aborting
  loading := h.loading

theorem BusyInv.fits (h : BusyInv s) : BusyFits s where
  named l flight := by
    have waits := h.waits l flight
    unfold waitsFor at waits
    unfold NamesWork
    cases cmd : l.command <;> simp_all
  halting := h.halting
  aborting := h.aborting
  loading := h.loading

/-- A channel in HALTING or ABORTING has its command waiting for what holds it there. -/
theorem BusyInv.staysAt (h : BusyInv s) (n : ChannelNo) : StaysAt s n where
  halting := by
    by_cases state : (s.channel n).state = .halting
    · obtain ⟨l, flight, cmd, operand⟩ := commandOn_iff.mp (h.halting n state)
      have waits := h.waits l flight
      rw [waitsFor, cmd, channelOfOperand_eq operand] at waits
      cases busy : s.channelInFlight n <;> simp_all [leaveHaltingDue, Option.isSome_iff_ne_none]
    · exact leaveHaltingDue_of_state s n state
  aborting := by
    by_cases state : (s.channel n).state = .aborting
    · obtain ⟨l, flight, cmd, operand⟩ := commandOn_iff.mp (h.aborting n state).1
      have waits := h.waits l flight
      rw [waitsFor, cmd, channelOfOperand_eq operand] at waits
      simp_all [leaveAbortingDue]
    · exact leaveAbortingDue_of_state s n state

/-! ### Updates that keep the command and what it names -/

/-- The command in progress names its work by the states of the channels and by whether there is a load. -/
theorem BusyFits.of_agree (h : BusyFits s)
    (state : ∀ n, (t.channel n).state = (s.channel n).state)
    (slot : ∀ n, (s.channel n).state = .aborting → (s.channel n).pendingEvent = none →
      (t.channel n).pendingEvent = none)
    (command : t.command.inProgress = s.command.inProgress)
    (loader : t.loader.isSome = s.loader.isSome) : BusyFits t where
  named l flight := by
    have named := h.named l (command ▸ flight)
    unfold NamesWork at named ⊢
    simpa only [state, loader] using named
  halting n halting := by
    simpa only [commandOn, command] using h.halting n ((state n).symm.trans halting)
  aborting n aborting := by
    have aborting := (state n).symm.trans aborting
    obtain ⟨on, empty⟩ := h.aborting n aborting
    exact ⟨by simpa only [commandOn, command] using on, slot n aborting empty⟩
  loading some := by rw [command]; exact h.loading (loader ▸ some)

theorem BusyFits.of_tables (h : BusyFits s) (channels : t.channels = s.channels := by rfl)
    (command : t.command.inProgress = s.command.inProgress := by rfl)
    (loader : t.loader.isSome = s.loader.isSome := by rfl) : BusyFits t :=
  h.of_agree (fun n => by rw [State.channel_of_channels _ _ channels])
    (fun n _ => by rw [State.channel_of_channels _ _ channels]; exact id) command loader

/-- A record replaced by one in the same state, which takes up no pending event in ABORTING. -/
theorem BusyFits.putChannel (h : BusyFits s) (n : ChannelNo) (c : Channel)
    (state : c.state = (s.channel n).state := by rfl)
    (slot : (s.channel n).pendingEvent = none → c.pendingEvent = none := by exact id) :
    BusyFits (s.putChannel n c) := by
  refine h.of_agree (fun m => ?_) (fun m _ => ?_) rfl rfl <;> rw [State.channel_putChannel] <;> split
  · next e => rw [e, state]
  · rfl
  · next e => rw [e]; exact slot
  · exact id

/-- An operation at channel `n` alone that goes from one state without a command of its own to another. -/
theorem BusyFits.of_working (h : BusyFits s) (before : Working (s.channel n).state)
    (after : Working (t.channel n).state)
    (others : ∀ m, m ≠ n → t.channel m = s.channel m)
    (command : t.command.inProgress = s.command.inProgress)
    (loader : t.loader.isSome = s.loader.isSome) : BusyFits t where
  named l flight := by
    have named := h.named l (command ▸ flight)
    unfold NamesWork at named ⊢
    cases cmd : l.command <;> simp only [cmd] at named ⊢
    case halt =>
      have other : channelOfOperand l.a ≠ n := fun e => before.1 (e ▸ named.1)
      rwa [others _ other]
    case abort =>
      have other : channelOfOperand l.a ≠ n := fun e => before.2 (e ▸ named.1)
      rwa [others _ other]
    case loadMap => rwa [loader]
  halting m halting := by
    have other : m ≠ n := fun e => after.1 (e ▸ halting)
    rw [others m other] at halting
    simpa only [commandOn, command] using h.halting m halting
  aborting m aborting := by
    have other : m ≠ n := fun e => after.2 (e ▸ aborting)
    rw [others m other] at aborting ⊢
    simpa only [commandOn, command] using h.aborting m aborting
  loading some := by rw [command]; exact h.loading (loader ▸ some)

theorem BusyFits.putWorking (h : BusyFits s) (n : ChannelNo) (c : Channel)
    (before : Working (s.channel n).state) (after : Working c.state := by simp [Working]) :
    BusyFits (s.putChannel n c) :=
  h.of_working before (by simpa using after) (fun m => State.channel_putChannel_of_ne s n m c) rfl rfl

/-- The command of channel `n` ends, and the channel leaves HALTING or ABORTING. -/
theorem BusyFits.leave (h : BusyFits s) {cmd : HostCommand} (on : commandOn s cmd n = true)
    (own : cmd = .halt ∨ cmd = .abort) (after : Working (t.channel n).state)
    (others : ∀ m, m ≠ n → t.channel m = s.channel m)
    (command : t.command.inProgress = none) (loader : t.loader = s.loader) : BusyFits t where
  named l flight := by rw [command] at flight; cases flight
  halting m halting := by
    have other : m ≠ n := fun e => after.1 (e ▸ halting)
    rw [others m other] at halting
    exact absurd (eq_of_commandOn on (h.halting m halting)) other
  aborting m aborting := by
    have other : m ≠ n := fun e => after.2 (e ▸ aborting)
    rw [others m other] at aborting
    exact absurd (eq_of_commandOn on (h.aborting m aborting).1) other
  loading some := by
    obtain ⟨l, flight, named⟩ := h.loading (loader ▸ some)
    obtain ⟨l', flight', named', -⟩ := commandOn_iff.mp on
    cases flight.symm.trans flight'
    rcases own with e | e <;> rw [named, e] at named' <;> cases named'

/-- A command that is on no channel and is no load ends. -/
theorem BusyFits.ended (h : BusyFits s) {l : Latched} (flight : s.command.inProgress = some l)
    (other : l.command = .writeEntry ∨ l.command = .logStop) (channels : t.channels = s.channels := by rfl)
    (command : t.command.inProgress = none := by rfl) (loader : t.loader = s.loader := by rfl) :
    BusyFits t where
  named l flight := by rw [command] at flight; cases flight
  halting n halting := by
    rw [State.channel_of_channels _ _ channels] at halting
    obtain ⟨l', flight', cmd, -⟩ := commandOn_iff.mp (h.halting n halting)
    cases flight.symm.trans flight'
    simp [cmd] at other
  aborting n aborting := by
    rw [State.channel_of_channels _ _ channels] at aborting
    obtain ⟨l', flight', cmd, -⟩ := commandOn_iff.mp (h.aborting n aborting).1
    cases flight.symm.trans flight'
    simp [cmd] at other
  loading some := by
    obtain ⟨l', flight', cmd⟩ := h.loading (loader ▸ some)
    cases flight.symm.trans flight'
    simp [cmd] at other

end Sys2Proof.Machine
end

section
/-! SUPPORT. The map sets and the load beside every update of the part (for O57, R73, R76 and R95). -/

namespace Sys2Proof.Machine

-- The proofs are elaborated in turn: side by side their threads outgrow the check's memory limit.
set_option Elab.async false

variable {s t u : State} {n : ChannelNo} {m : SetNo} {x : MapSet} {l : Loader}

/-! ### One set, and one load -/

/-- A set has a limit of 1 to 64, and is invalid beyond it while READY (R73). -/
structure SetFits (x : MapSet) : Prop where
  limit : 1 ≤ x.limit.toNat ∧ x.limit.toNat ≤ 64
  beyond : ∀ p : PageNo, x.state = .ready → x.limit.toNat ≤ p.val → (x.entry p).valid = false

/-- A load fits its image, and its set is cleared from its progress on (R73, R83, R85, R86). -/
structure LoadFits (l : Loader) (x : MapSet) : Prop where
  progress : l.progress < l.newLimit
  newLimit : l.newLimit.toNat ≤ 64
  source : l.source.toNat + l.newLimit.toNat ≤ 2 ^ 24
  state : x.state = .loading
  cleared : ∀ p : PageNo, l.phase = .reading → l.progress.toNat ≤ p.val → x.entry p = PageEntry.cleared

theorem SetsInv.setFits (h : SetsInv s) (m : SetNo) : SetFits (s.mapSet m) := ⟨h.limit m, h.beyond m⟩

theorem SetsInv.loadFits (h : SetsInv s) (loader : s.loader = some l) : LoadFits l (s.mapSet l.set) := by
  have fits := h.loader l loader
  simp only [loaderFits, Bool.and_eq_true, decide_eq_true_eq, beq_iff_eq] at fits
  obtain ⟨⟨⟨progress, newLimit⟩, source⟩, state⟩ := fits
  exact ⟨progress, newLimit, source, state, fun p => h.cleared l p loader⟩

/-- The invariant, set by set and load by load. -/
theorem SetsInv.of_fits (sets : ∀ m, SetFits (s.mapSet m))
    (loading : ∀ m, (s.mapSet m).state = .loading → s.loader.map Loader.set = some m)
    (loads : ∀ l, s.loader = some l → LoadFits l (s.mapSet l.set))
    (beside : ∀ y, s.port.inFlight = some y → transactionBeside s y)
    (command : s.loader.isSome → ∃ c, s.command.inProgress = some c ∧ c.command = .loadMap)
    (writeEntry : ∀ c, s.command.inProgress = some c → writeEntryFits s c) : SetsInv s where
  limit m := (sets m).limit
  loading := loading
  loader l loader := by
    have fits := loads l loader
    simp only [loaderFits, Bool.and_eq_true, decide_eq_true_eq, beq_iff_eq]
    exact ⟨⟨⟨fits.progress, fits.newLimit⟩, fits.source⟩, fits.state⟩
  beside := beside
  command := command
  writeEntry := writeEntry
  beyond m p := (sets m).beyond p
  cleared l p loader := (loads l loader).cleared p

theorem SetState.eq_ready {x : SetState} (h : x ≠ .loading) : x = .ready := by
  cases x
  · rfl
  · exact absurd rfl h

/-- The sets that no load names are READY (R73). -/
theorem SetsInv.ready (h : SetsInv s) (m : SetNo) (other : ∀ l, s.loader = some l → l.set ≠ m) :
    (s.mapSet m).state = .ready := by
  refine SetState.eq_ready fun loading => ?_
  obtain ⟨l, loader, named⟩ := Option.map_eq_some_iff.mp (h.loading m loading)
  exact other l loader named

/-- While a command other than LOAD MAP is in progress there is no load. -/
theorem SetsInv.loader_none (h : SetsInv s) {c : Latched} (flight : s.command.inProgress = some c)
    (other : c.command ≠ .loadMap) : s.loader = none := by
  rw [← Option.not_isSome_iff_eq_none]
  intro some
  obtain ⟨c', flight', named⟩ := h.command some
  cases flight.symm.trans flight'
  exact other named

theorem SetsInv.loader_none_of_idle (h : SetsInv s) (idle : s.command.inProgress = none) :
    s.loader = none := by
  rw [← Option.not_isSome_iff_eq_none]
  intro some
  obtain ⟨c, flight, -⟩ := h.command some
  rw [idle] at flight
  cases flight

/-! ### Updates beside the sets and the load -/

/-- A transaction in flight beside a load: a map image read to be delivered stands only beside a load in READING,
and through the set of such a load none does (R84, R85, R86). -/
theorem transactionBeside_iff {y : Transaction} : transactionBeside s y = true ↔
    (y.purpose = .mapRead → y.delivery = .deliver → ∃ l, s.loader = some l ∧ l.phase = .reading) ∧
      ∀ l, s.loader = some l → l.phase = .reading → y.throughSet l.set = false := by
  unfold transactionBeside
  cases s.loader with
  | none => simp [imp_iff_not_or]
  | some l =>
    simp only [Option.some.injEq, exists_eq_left', forall_eq']
    cases l.phase <;> simp [imp_iff_not_or]

theorem transactionBeside_of_loader (h : t.loader = s.loader) (y : Transaction) :
    transactionBeside t y = transactionBeside s y := by
  simp only [transactionBeside, h]

/-- A transaction abandoned by its channel is, to a load, the same one (R96). -/
theorem SetsInv.beside_abandoned (h : SetsInv s) (n : ChannelNo) {y : Transaction}
    (flight : (abandonedPort n s.port).inFlight = some y) : transactionBeside s y := by
  obtain ⟨z, own, e⟩ := Option.map_eq_some_iff.mp flight
  have beside := h.beside z own
  split at e
  · next mine =>
    have other : z.purpose ≠ .mapRead := fun e => by rw [e] at mine; cases mine.1
    subst e
    exact transactionBeside_iff.mpr ⟨fun map => absurd map other, (transactionBeside_iff.mp beside).2⟩
  · exact e ▸ beside

/-- The invariant looks at the sets, the load, the transaction in flight as a load sees it, and the command in
progress; without a load the command may change. -/
theorem SetsInv.of_frame (h : SetsInv s) (sets : t.sets = s.sets := by rfl)
    (loader : t.loader = s.loader := by rfl)
    (flight : ∀ y, t.port.inFlight = some y → transactionBeside s y)
    (command : t.command.inProgress = s.command.inProgress ∨
      s.loader = none ∧ ∀ c, t.command.inProgress = some c → writeEntryFits s c) : SetsInv t := by
  have mapSet : ∀ m, t.mapSet m = s.mapSet m := fun m => State.mapSet_of_sets s m sets
  refine .of_fits (fun m => ?_) (fun m => ?_) (fun l load => ?_) (fun y flying => ?_) (fun some => ?_)
    fun c running => ?_
  · exact mapSet m ▸ h.setFits m
  · rw [mapSet, loader]
    exact h.loading m
  · rw [mapSet]
    exact h.loadFits (loader ▸ load)
  · rw [transactionBeside_of_loader loader]
    exact flight y flying
  · rcases command with same | ⟨none, -⟩
    · rw [same]
      exact h.command (loader ▸ some)
    · rw [loader, none] at some
      cases some
  · have fits : writeEntryFits s c = true := by
      rcases command with same | ⟨-, fits⟩
      · exact h.writeEntry c (same ▸ running)
      · exact fits c running
    simpa only [writeEntryFits, mapSet] using fits

theorem SetsInv.of_tables (h : SetsInv s) (sets : t.sets = s.sets := by rfl)
    (loader : t.loader = s.loader := by rfl) (port : t.port = s.port := by rfl)
    (command : t.command.inProgress = s.command.inProgress := by rfl) : SetsInv t :=
  h.of_frame sets loader (fun y flying => h.beside y (port ▸ flying)) (.inl command)

/-- A command other than LOAD MAP ends. -/
theorem SetsInv.ended (h : SetsInv s) {c : Latched} (flight : s.command.inProgress = some c)
    (other : c.command ≠ .loadMap) (sets : t.sets = s.sets := by rfl)
    (loader : t.loader = s.loader := by rfl) (port : t.port = s.port := by rfl)
    (command : t.command.inProgress = none := by rfl) : SetsInv t :=
  h.of_frame sets loader (fun y flying => h.beside y (port ▸ flying))
    (.inr ⟨h.loader_none flight other, fun c running => by rw [command] at running; cases running⟩)

theorem SetsInv.completeChannelCommand (h : SetsInv s) {cmd : HostCommand} (own : cmd ≠ .loadMap)
    (n : ChannelNo) (r : ResultCode) : SetsInv (completeChannelCommand cmd n r s) := by
  rw [completeChannelCommand_eq]
  split
  · next on =>
    obtain ⟨c, flight, named, -⟩ := commandOn_iff.mp on
    exact h.ended flight (named ▸ own)
  · exact h

theorem SetsInv.discardTransaction (h : SetsInv s) (n : ChannelNo) : SetsInv (discardTransaction n s) := by
  rw [discardTransaction_eq]
  exact h.of_frame (flight := fun y => h.beside_abandoned n) (command := .inl rfl)

theorem SetsInv.enterFaulted (h : SetsInv s) (n : ChannelNo) (k : FaultKind) :
    SetsInv (enterFaulted n k s) := by
  refine h.of_frame (by rw [enterFaulted_eq]; rfl) (by rw [enterFaulted_eq]; rfl) (fun y flying => ?_) ?_
  · rw [enterFaulted_eq] at flying
    exact h.beside_abandoned n flying
  · rw [enterFaulted_eq]
    dsimp only
    split
    · next halts =>
      obtain ⟨c, flight, named, -⟩ := commandOn_iff.mp (Bool.and_eq_true _ _ ▸ halts).2
      exact .inr ⟨h.loader_none flight (by simp [named]), nofun⟩
    · exact .inl rfl

theorem SetsInv.makePost (h : SetsInv s) (n : ChannelNo) (k : EventKind) (words : BitVec 16) :
    SetsInv (makePost n k words s) := by
  obtain ⟨c, q, e⟩ := makePost_frame s n k words
  rw [e]
  exact h.of_tables

theorem SetsInv.freePort (h : SetsInv s) : SetsInv (freePort s) :=
  h.of_frame (flight := nofun) (command := .inl rfl)

/-! ### One entry -/

theorem mapSet_updateEntry (m j : SetNo) (p : PageNo) (f : PageEntry → PageEntry) (s : State) :
    (updateEntry m p f s).mapSet j =
      if j = m then (s.mapSet m).putEntry p (f ((s.mapSet m).entry p)) else s.mapSet j :=
  State.mapSet_putSet s m j _

theorem updateEntry_state (m j : SetNo) (p : PageNo) (f : PageEntry → PageEntry) (s : State) :
    ((updateEntry m p f s).mapSet j).state = (s.mapSet j).state ∧
      ((updateEntry m p f s).mapSet j).limit = (s.mapSet j).limit := by
  rw [mapSet_updateEntry]
  split
  · next e => rw [e]; exact ⟨rfl, rfl⟩
  · exact ⟨rfl, rfl⟩

theorem entry_updateEntry (m j : SetNo) (p q : PageNo) (f : PageEntry → PageEntry) (s : State) :
    ((updateEntry m p f s).mapSet j).entry q =
      if j = m ∧ q = p then f ((s.mapSet m).entry p) else (s.mapSet j).entry q := by
  rw [mapSet_updateEntry]
  by_cases set : j = m
  · rw [if_pos set, MapSet.entry_putEntry, set]
    simp
  · simp [set]

/-- An entry changed: one beyond the limit of a READY set stays invalid, and no load reads into the set. -/
theorem SetsInv.updateEntry (h : SetsInv s) (m : SetNo) (p : PageNo) (f : PageEntry → PageEntry)
    (beyond : (s.mapSet m).state = .ready → (s.mapSet m).limit.toNat ≤ p.val →
      (f ((s.mapSet m).entry p)).valid = false)
    (other : ∀ l, s.loader = some l → l.phase = .reading → l.set ≠ m) : SetsInv (updateEntry m p f s) := by
  have same := fun j => updateEntry_state m j p f s
  have state := fun j => (same j).1
  have limit := fun j => (same j).2
  refine .of_fits (fun j => ⟨?_, fun q => ?_⟩) (fun j => ?_) (fun l load => ?_) h.beside h.command
    fun c running => ?_
  · rw [limit]
    exact h.limit j
  · rw [state, limit, entry_updateEntry]
    split
    · next e =>
      obtain ⟨rfl, rfl⟩ := e
      exact beyond
    · exact h.beyond j q
  · rw [state]
    exact h.loading j
  · have fits := h.loadFits load
    refine ⟨fits.progress, fits.newLimit, fits.source, (state _).trans fits.state, fun q reading from' => ?_⟩
    rw [entry_updateEntry, if_neg fun e => other l load reading e.1]
    exact fits.cleared q reading from'
  · simpa only [writeEntryFits, limit] using h.writeEntry c running

/-- An indicator set in an entry of a set into which no load reads (R81, R82). -/
theorem SetsInv.mark (h : SetsInv s) (m : SetNo) (p : PageNo) {f : PageEntry → PageEntry}
    (valid : ∀ e, (f e).valid = e.valid)
    (other : ∀ l, s.loader = some l → l.phase = .reading → l.set ≠ m) : SetsInv (Machine.updateEntry m p f s) :=
  h.updateEntry m p f (fun ready limit => (valid _).trans (h.beyond m p ready limit)) other

/-- A READY set is none that a load reads into. -/
theorem SetsInv.ne_of_ready (h : SetsInv s) (ready : (s.mapSet m).state = .ready) (l : Loader)
    (load : s.loader = some l) : l.set ≠ m := by
  rintro rfl
  rw [(h.loadFits load).state] at ready
  cases ready

/-! ### A load begins, goes on and ends -/

/-- The set of a load is replaced, and the load stands. -/
theorem SetsInv.loads (h : SetsInv s) {l : Loader} (sets : t.sets = (s.putSet l.set x).sets)
    (loader : t.loader = some l) (alone : ∀ j, j ≠ l.set → (s.mapSet j).state = .ready)
    (limit : 1 ≤ x.limit.toNat ∧ x.limit.toNat ≤ 64) (fits : LoadFits l x)
    (beside : ∀ y, t.port.inFlight = some y → transactionBeside t y)
    (command : ∃ c, t.command.inProgress = some c ∧ c.command = .loadMap) : SetsInv t := by
  have mapSet : ∀ j, t.mapSet j = if j = l.set then x else s.mapSet j := fun j =>
    (State.mapSet_of_sets _ j sets).trans (State.mapSet_putSet s l.set j x)
  refine .of_fits (fun j => ?_) (fun j loading => ?_) (fun l' load => ?_) beside (fun _ => command)
    fun c running => ?_
  · rw [mapSet]
    split
    · exact ⟨limit, fun p ready => by rw [fits.state] at ready; cases ready⟩
    · exact h.setFits j
  · rw [mapSet] at loading
    split at loading
    · next e => rw [loader, e]; rfl
    · next e =>
      rw [alone j e] at loading
      cases loading
  · cases loader.symm.trans load
    rw [mapSet, if_pos rfl]
    exact fits
  · obtain ⟨c', running', named⟩ := command
    cases running.symm.trans running'
    simp [writeEntryFits, named]

/-- The set of a load is replaced by a READY one, and the load and its command are over. -/
theorem SetsInv.loaded (h : SetsInv s) (sets : t.sets = (s.putSet m x).sets) (loader : t.loader = none)
    (alone : ∀ j, j ≠ m → (s.mapSet j).state = .ready) (ready : x.state = .ready) (fits : SetFits x)
    (free : t.port.inFlight = none) (command : t.command.inProgress = none) : SetsInv t := by
  have mapSet : ∀ j, t.mapSet j = if j = m then x else s.mapSet j := fun j =>
    (State.mapSet_of_sets _ j sets).trans (State.mapSet_putSet s m j x)
  refine .of_fits (fun j => ?_) (fun j loading => ?_) (fun l load => ?_) (fun y flying => ?_) (fun some => ?_)
    fun c running => ?_
  · rw [mapSet]
    split
    · exact fits
    · exact h.setFits j
  · rw [mapSet] at loading
    split at loading
    · rw [ready] at loading
      cases loading
    · next e =>
      rw [alone j e] at loading
      cases loading
  · rw [loader] at load
    cases load
  · rw [free] at flying
    cases flying
  · rw [loader] at some
    cases some
  · rw [command] at running
    cases running

/-- While a load stands every other set is READY. -/
theorem SetsInv.alone (h : SetsInv s) (load : s.loader = some l) (j : SetNo) (other : j ≠ l.set) :
    (s.mapSet j).state = .ready :=
  h.ready j fun l' load' => by
    cases load.symm.trans load'
    exact other.symm

/-- A load whose drain has ended reads into a cleared set (R85). -/
theorem SetsInv.enterReading (h : SetsInv s) (sets : t.sets = (s.putSet l.set
      { s.mapSet l.set with entries := clearedEntries }).sets)
    (loader : t.loader = some { l with phase := .reading, progress := 0 })
    (alone : ∀ j, j ≠ l.set → (s.mapSet j).state = .ready) (state : (s.mapSet l.set).state = .loading)
    (image : 1 ≤ l.newLimit.toNat ∧ l.newLimit.toNat ≤ 64 ∧ l.source.toNat + l.newLimit.toNat ≤ 2 ^ 24)
    (port : t.port = s.port) (unused : s.setInUse l.set = false)
    (command : ∃ c, t.command.inProgress = some c ∧ c.command = .loadMap) : SetsInv t := by
  obtain ⟨some, newLimit, source⟩ := image
  refine h.loads (l := { l with phase := .reading, progress := 0 }) sets loader alone (h.limit l.set)
    ⟨?_, newLimit, source, state, fun p _ _ => ?_⟩ (fun y flying => ?_) command
  · show 0 < l.newLimit
    rw [BitVec.lt_def]
    exact some
  · exact MapSet.entry_cleared p _ _
  · rw [port] at flying
    have unused : y.throughSet l.set = false := by simpa [State.setInUse, flying] using unused
    refine transactionBeside_iff.mpr ⟨fun _ _ => ⟨_, loader, rfl⟩, fun l' load _ => ?_⟩
    cases loader.symm.trans load
    exact unused

theorem drainedLoad_some (h : drainedLoad s = some l) :
    s.loader = some l ∧ l.phase = .draining ∧ s.setInUse l.set = false := by
  unfold drainedLoad at h
  split at h
  · cases h
  · next l' loader =>
    split at h
    · next due =>
      cases h
      simp only [Bool.and_eq_true, beq_iff_eq, Bool.not_eq_true'] at due
      exact ⟨loader, due.1, due.2⟩
    · cases h

theorem SetsInv.endDrain (h : SetsInv s) : SetsInv (endDrain s) := by
  unfold Machine.endDrain
  split
  · exact h
  · next l due =>
    obtain ⟨load, -, unused⟩ := drainedLoad_some due
    have fits := h.loadFits load
    refine h.enterReading rfl rfl (h.alone load) fits.state ⟨?_, fits.newLimit, fits.source⟩ rfl unused
      (h.command (by rw [load]; rfl))
    have := BitVec.lt_def.mp fits.progress
    omega

/-- The set that a word of the image has filled one entry further (R86). -/
theorem LoadFits.fill (fits : LoadFits l x) (reading : l.phase = .reading) (e : PageEntry) (q : PageNo)
    (above : l.progress.toNat + 1 ≤ q.val) :
    (x.putEntry (Fin.ofNat 64 l.progress.toNat) e).entry q = PageEntry.cleared := by
  have small : l.progress.toNat < 64 :=
    Nat.lt_of_lt_of_le (BitVec.lt_def.mp fits.progress) fits.newLimit
  have other : q ≠ Fin.ofNat 64 l.progress.toNat := by
    rintro rfl
    simp only [Fin.ofNat, Nat.mod_eq_of_lt small] at above
    omega
  rw [MapSet.entry_putEntry_of_ne _ _ _ _ other]
  exact fits.cleared q reading (by omega)

/-- The progress of a load rises by one below its new limit (R86). -/
theorem LoadFits.progress_succ (fits : LoadFits l x) : (l.progress + 1).toNat = l.progress.toNat + 1 := by
  have below := BitVec.lt_def.mp fits.progress
  have small := fits.newLimit
  rw [BitVec.toNat_add]
  exact Nat.mod_eq_of_lt (by simp; omega)

/-- A word of the image fills the next entry, and the last one completes the load (R86, R87). -/
theorem SetsInv.fillEntry (h : SetsInv s) (load : s.loader = some l) (reading : l.phase = .reading)
    (free : s.port.inFlight = none) (w : Word) : SetsInv (fillEntry l w s) := by
  have fits := h.loadFits load
  have succ := fits.progress_succ
  unfold Machine.fillEntry
  dsimp only
  split
  · next last =>
    have limit : l.newLimit.toNat = l.progress.toNat + 1 := by rw [← last, succ]
    refine h.loaded (m := l.set) (x := { (s.mapSet l.set).putEntry (Fin.ofNat 64 l.progress.toNat) (entryOfImage w)
      with state := .ready, limit := l.newLimit }) ?_ rfl (h.alone load) rfl ⟨?_, fun p _ above => ?_⟩ free rfl
    · simp [completeLoad, completeCommand, latchCommand, Machine.updateEntry]
    · have newLimit := fits.newLimit
      show 1 ≤ l.newLimit.toNat ∧ l.newLimit.toNat ≤ 64
      omega
    · have filled := fits.fill reading (entryOfImage w) p (limit ▸ above)
      exact congrArg PageEntry.valid filled
  · next more =>
    refine h.loads (l := { l with progress := l.progress + 1 }) rfl rfl (fun j => h.alone load j) (h.limit l.set)
      ⟨?_, fits.newLimit, fits.source, fits.state, fun p _ above => ?_⟩
      (fun y flying => ?_) (h.command (by rw [load]; rfl))
    · have below := BitVec.lt_def.mp fits.progress
      have other : (l.progress + 1).toNat ≠ l.newLimit.toNat := fun e => more (BitVec.eq_of_toNat_eq e)
      rw [BitVec.lt_def]
      show (l.progress + 1).toNat < l.newLimit.toNat
      omega
    · exact fits.fill reading _ p (succ ▸ above)
    · exact absurd (free.symm.trans flying) nofun

theorem setFits_reset : SetFits MapSet.reset where
  limit := by decide
  beyond p _ _ := by simp [MapSet.reset, MapSet.entry, PageEntry.cleared]

/-- A load that a bus error ends leaves its set cleared (R88). -/
theorem SetsInv.failLoad (h : SetsInv s) (load : s.loader = some l) (free : s.port.inFlight = none) :
    SetsInv (failLoad l s) :=
  h.loaded (m := l.set) rfl rfl (h.alone load) rfl setFits_reset free rfl

theorem SetsInv.deliverMapRead (h : SetsInv s) (reading : ∀ l, s.loader = some l → l.phase = .reading)
    (free : s.port.inFlight = none) (r : BusRead) : SetsInv (deliverMapRead r s) := by
  unfold Machine.deliverMapRead
  split
  · next l w load => exact h.fillEntry load (reading l load) free w
  · next l load => exact h.failLoad load free
  · exact h

/-! ### WRITE ENTRY -/

theorem releasedWriteEntry_some {c : Latched} (h : releasedWriteEntry s = some c) :
    s.command.inProgress = some c ∧ c.command = .writeEntry := by
  unfold releasedWriteEntry at h
  split at h
  · cases h
  · next c' running =>
    split at h
    · next due =>
      cases h
      simp only [Bool.and_eq_true, beq_iff_eq] at due
      exact ⟨running, due.1⟩
    · cases h

/-- An entry below the limit replaced while there is no load (R90, R91). -/
theorem SetsInv.replaceEntry (h : SetsInv s) (none : s.loader = none) {p : PageNo}
    (below : p.val < (s.mapSet m).limit.toNat) (image : Word) : SetsInv (replaceEntry m p image s) := by
  have replaced := h.updateEntry m p (fun _ => entryOfImage image)
    (fun _ beyond => absurd below (Nat.not_lt.mpr beyond)) (by simp [none])
  exact replaced.of_frame (flight := replaced.beside) (command := .inr ⟨none, nofun⟩)

theorem SetsInv.endWriteEntry (h : SetsInv s) : SetsInv (endWriteEntry s) := by
  unfold Machine.endWriteEntry
  split
  · exact h
  · next c due =>
    obtain ⟨running, named⟩ := releasedWriteEntry_some due
    have fits := h.writeEntry c running
    exact h.replaceEntry (h.loader_none running (by simp [named])) (by simpa [writeEntryFits, named] using fits) _

/-! ### The log writer's turn and the grant -/

/-- A LOG STOP that is due is the command in progress (R148). -/
theorem logStop_of_due (due : logStopDue s = true) :
    ∃ c, s.command.inProgress = some c ∧ c.command = .logStop := by
  simp only [logStopDue, logStopWaits, Bool.and_eq_true] at due
  obtain ⟨waits, -⟩ := due
  split at waits
  · cases waits
  · next c running => exact ⟨c, running, by simpa using waits⟩

theorem SetsInv.issues (h : SetsInv s) (issued : Issues s t) : SetsInv t := by
  cases issued with
  | beside p x flight none map =>
    refine h.of_frame (flight := fun y flying => ?_) (command := .inl rfl)
    cases flight.symm.trans flying
    exact transactionBeside_iff.mpr ⟨fun read _ => map read, fun l _ _ => by
      simp only [Transaction.throughSet, none]⟩
  | through p x m page flight set ready =>
    have other : x.purpose ≠ .mapRead := fun e => by rw [e] at set; cases set
    have beside : transactionBeside s x = true :=
      transactionBeside_iff.mpr ⟨fun read => absurd read other, fun l load _ => by
        simpa [Transaction.throughSet, set] using (h.ne_of_ready ready l load).symm⟩
    have issued : SetsInv { s with port := p } := h.of_frame
      (flight := fun y flying => by cases flight.symm.trans flying; exact beside) (command := .inl rfl)
    exact issued.mark m page (fun _ => rfl) fun l load _ => h.ne_of_ready ready l load

end Sys2Proof.Machine
end

section
/-! SUPPORT. What an operation on behalf of a channel keeps of the command in progress, the map sets and the load
(for O57). -/

namespace Sys2Proof.Machine

-- The proofs are elaborated in turn: side by side their threads outgrow the check's memory limit.
set_option Elab.async false

variable {s t u : State} {n : ChannelNo} {c : Channel}

/-! ### In the midst of an event -/

/-- What an update in the midst of an event keeps: the command in progress names its work, and the map sets and
the load agree. -/
structure LongWork (s t : State) : Prop where
  busy : BusyFits s → BusyFits t
  sets : SetsInv s → SetsInv t

namespace LongWork

theorem refl (s : State) : LongWork s s := ⟨id, id⟩

theorem trans (h : LongWork s t) (g : LongWork t u) : LongWork s u := ⟨g.busy ∘ h.busy, g.sets ∘ h.sets⟩

theorem of_tables (channels : t.channels = s.channels := by rfl) (sets : t.sets = s.sets := by rfl)
    (loader : t.loader = s.loader := by rfl) (port : t.port = s.port := by rfl)
    (command : t.command.inProgress = s.command.inProgress := by rfl) : LongWork s t :=
  ⟨fun h => h.of_tables channels command (by rw [loader]), fun h => h.of_tables sets loader port command⟩

theorem putChannel (s : State) (n : ChannelNo) (c : Channel)
    (state : c.state = (s.channel n).state := by rfl)
    (slot : (s.channel n).pendingEvent = none → c.pendingEvent = none := by exact id) :
    LongWork s (s.putChannel n c) :=
  ⟨fun h => h.putChannel n c state slot, fun h => h.of_tables⟩

theorem putWorking (s : State) (n : ChannelNo) (c : Channel) (before : Working (s.channel n).state)
    (after : Working c.state := by simp [Working]) : LongWork s (s.putChannel n c) :=
  ⟨fun h => h.putWorking n c before after, fun h => h.of_tables⟩

/-! ### The shared operations -/

theorem answerRequest (s : State) (n : ChannelNo) (a : Answer) : LongWork s (answerRequest n a s) :=
  (putChannel s n { s.channel n with request := none }).trans .of_tables

theorem turnAway (s : State) (n : ChannelNo) : LongWork s (turnAway n s) := by
  rw [turnAway_eq]
  exact (putChannel s n { s.channel n with request := none }).trans .of_tables

theorem discardTransaction (s : State) (n : ChannelNo) : LongWork s (discardTransaction n s) where
  busy h := by
    rw [discardTransaction_eq]
    exact h.of_tables
  sets h := h.discardTransaction n

/-- A channel outside ABORTING enters FAULTED, and a HALT in progress on it is over (R11, R19). -/
theorem enterFaulted (n : ChannelNo) (k : FaultKind) (live : (s.channel n).state ≠ .aborting) :
    LongWork s (enterFaulted n k s) where
  sets h := h.enterFaulted n k
  busy h := by
    have own : ((Machine.enterFaulted n k s).channel n).state = .faulted := by
      simp [channel_enterFaulted, faultedChannel]
    have after : Working ((Machine.enterFaulted n k s).channel n).state := by simp [Working, own]
    have others : ∀ m, m ≠ n → (Machine.enterFaulted n k s).channel m = s.channel m := fun m e => by
      rw [channel_enterFaulted, if_neg e]
    have loader : (Machine.enterFaulted n k s).loader = s.loader := by rw [enterFaulted_eq]; rfl
    by_cases halting : (s.channel n).state = .halting
    · have on := h.halting n halting
      exact h.leave on (.inl rfl) after others (by simp [enterFaulted_eq, halting, on]) loader
    · exact h.of_working ⟨halting, live⟩ after others (by simp [enterFaulted_eq, halting]) (by rw [loader])

/-- A channel outside ABORTING makes a post (R9). -/
theorem makePost (n : ChannelNo) (k : EventKind) (words : BitVec 16)
    (live : (s.channel n).state ≠ .aborting) : LongWork s (makePost n k words s) where
  sets h := h.makePost n k words
  busy h := by
    obtain ⟨channels, q, e⟩ := makePost_frame s n k words
    refine h.of_agree (fun m => makePost_state s n m k words) (fun m aborting => ?_) (by rw [e]) (by rw [e])
    have other : m ≠ n := fun e => live (e ▸ aborting)
    rw [(ChannelWork.makePost (account := False) s n k words).others m other]
    exact id

/-! ### Links and the settling sequence (R39, R41 to R45) -/

theorem enterFetching (n : ChannelNo) (addr : PhysAddr) (working : Working (s.channel n).state) :
    LongWork s (enterFetching n addr s) :=
  putWorking s n _ working

theorem followLink (n : ChannelNo) (addr : PhysAddr) (working : Working (s.channel n).state) :
    LongWork s (followLink n addr s) := by
  unfold Machine.followLink
  split
  · exact enterFetching n addr working
  · exact (putChannel s n _).trans (enterFaulted n _ (by simpa using working.2))

theorem postAndPut (n : ChannelNo) (k : EventKind) (words : BitVec 16)
    (working : Working (s.channel n).state) (c : Channel) (after : Working c.state := by simp [Working]) :
    LongWork s ((Machine.makePost n k words s).putChannel n c) :=
  (makePost n k words working.2).trans (putWorking _ n c (by simpa using working) after)

theorem settlingEnds (ends : SettlingEnds n s t) (working : Working (s.channel n).state) :
    LongWork s t := by
  cases ends with
  | follows addr => exact followLink n addr working
  | waits step => exact putWorking s n _ working
  | holds words => exact postAndPut n _ _ working _
  | ends words => exact postAndPut n _ _ working _

theorem settleFrom (n : ChannelNo) (step : SettlingStep) (d : Transfer)
    (working : Working (s.channel n).state) : LongWork s (settleFrom n step d s) := by
  rcases settleFrom_ends s n step d with ends | ⟨k, words, ends⟩
  · exact settlingEnds ends working
  · exact (makePost n k words working.2).trans (settlingEnds ends (by simpa using working))

/-! ### The end of an event at a channel -/

theorem completeBlock (s : State) (n : ChannelNo) : LongWork s (completeBlock n s) := by
  unfold Machine.completeBlock
  split
  · exact refl s
  · next d due =>
    have running := (completedBlock_some s n due).1
    exact settleFrom n .report d (by simp [running, Working])

theorem resumeSettling (s : State) (n : ChannelNo) : LongWork s (resumeSettling n s) := by
  unfold Machine.resumeSettling
  split
  · exact refl s
  · next step d due =>
    have settling := (resumedStep_some s n due).1
    exact settleFrom n step d (by simp [settling, Working])

/-- A channel that has posted leaves HALTING or ABORTING, and its command ends (R19, R25). -/
theorem leave (n : ChannelNo) (k : EventKind) (words : BitVec 16) {cmd : HostCommand} (r : ResultCode)
    (own : cmd = .halt ∨ cmd = .abort) (on : BusyFits s → commandOn s cmd n = true) (c : Channel)
    (after : Working c.state := by simp [Working]) :
    LongWork s (completeChannelCommand cmd n r ((Machine.makePost n k words s).putChannel n c)) where
  busy h := by
    have on := on h
    obtain ⟨channels, q, e⟩ := makePost_frame s n k words
    have posted : commandOn ((Machine.makePost n k words s).putChannel n c) cmd n = true := by
      rwa [commandOn_of_command s n cmd (by simp)]
    rw [completeChannelCommand_eq, if_pos posted]
    refine h.leave on own ?_ (fun m other => ?_) rfl (by rw [e]; rfl)
    · show Working (((Machine.makePost n k words s).putChannel n c).channel n).state
      rwa [State.channel_putChannel_self]
    · exact (State.channel_putChannel_of_ne _ n m c other).trans
        ((ChannelWork.makePost (account := False) s n k words).others m other)
  sets h := by
    have posted : SetsInv ((Machine.makePost n k words s).putChannel n c) := (h.makePost n k words).of_tables
    exact posted.completeChannelCommand (by rcases own with e | e <;> simp [e]) n r

theorem leaveHalting (s : State) (n : ChannelNo) : LongWork s (leaveHalting n s) := by
  unfold Machine.leaveHalting
  split
  · next due => exact leave n _ _ _ (.inl rfl) (fun h => h.halting n (halting_of_due due)) _
  · exact refl s

theorem leaveAborting (s : State) (n : ChannelNo) : LongWork s (leaveAborting n s) := by
  unfold Machine.leaveAborting
  split
  · next due => exact leave n _ _ _ (.inr rfl) (fun h => (h.aborting n (aborting_of_due due)).1) _
  · exact refl s

theorem meetEnd (s : State) (n : ChannelNo) (d : Transfer) : LongWork s (meetEnd n d s) := by
  unfold Machine.meetEnd
  dsimp only
  refine (answerRequest s n .ack).trans ?_
  split
  · split
    · exact putChannel _ n _
    · exact (putChannel _ n _).trans (discardTransaction _ n)
  · exact refl _

theorem meetInRunning (n : ChannelNo) (d : Transfer) (r : LinkRequest)
    (running : (s.channel n).state = .running) : LongWork s (meetInRunning n d r s) := by
  have live : (s.channel n).state ≠ .aborting := by simp [running]
  unfold Machine.meetInRunning
  dsimp only
  split
  · split
    · exact (answerRequest s n _).trans (putChannel _ n _)
    · exact refl s
  · exact enterFaulted n _ live
  · exact enterFaulted n _ live
  · split
    · exact refl s
    · exact (answerRequest s n _).trans (putChannel _ n _)
  · exact meetEnd s n d
  · exact enterFaulted n _ live

theorem meetWhileWaiting (n : ChannelNo) (r : LinkRequest) (live : (s.channel n).state ≠ .aborting) :
    LongWork s (meetWhileWaiting n r s) := by
  cases r with
  | fail => exact enterFaulted n _ live
  | offer | ask | endBlock => exact refl s

theorem meetRequest (s : State) (n : ChannelNo) : LongWork s (meetRequest n s) := by
  unfold Machine.meetRequest
  dsimp only
  cases (s.channel n).request with
  | none => exact refl s
  | some r =>
    cases state : (s.channel n).state with
    | disabled | idle | aborting | faulted => exact turnAway s n
    | fetching | settling _ | holding | halting | halted => exact meetWhileWaiting n r (by simp [state])
    | running =>
      cases (s.channel n).contents with
      | none => exact meetWhileWaiting n r (by simp [state])
      | some x =>
        cases x with
        | linkOnly a => exact meetWhileWaiting n r (by simp [state])
        | transfer d => exact meetInRunning n d r state

theorem carryOn (s : State) (n : ChannelNo) : LongWork s (carryOn n s) :=
  (resumeSettling s n).trans <| (leaveHalting _ n).trans <| (leaveAborting _ n).trans <|
    (completeBlock _ n).trans <| (meetRequest _ n).trans <| (completeBlock _ n).trans (meetRequest _ n)

end LongWork

/-! ### The wait of HALTING and ABORTING -/

/-- Whether a channel is about to leave HALTING or ABORTING is seen in its state, its pending event and its
transaction in flight. -/
theorem StaysAt.of_agree (h : StaysAt s n) (state : (t.channel n).state = (s.channel n).state)
    (slot : (t.channel n).pendingEvent = (s.channel n).pendingEvent)
    (flight : t.channelInFlight n = s.channelInFlight n ∨ t.channelInFlight n = true) : StaysAt t n := by
  obtain ⟨halting, aborting⟩ := h
  unfold leaveHaltingDue at halting
  unfold leaveAbortingDue at aborting
  rcases flight with same | flying
  · constructor
    · rwa [leaveHaltingDue, state, slot, same]
    · rwa [leaveAbortingDue, state, slot, same]
  · constructor
    · simp [leaveHaltingDue, flying]
    · simp [leaveAbortingDue, flying]

theorem QuietAt.staysAt (h : QuietAt s n) : StaysAt s n := ⟨h.halting, h.aborting⟩

/-- Between `s` and `t` no channel comes to be about to leave HALTING or ABORTING. -/
def Staying (s t : State) : Prop := (∀ n, StaysAt s n) → ∀ n, StaysAt t n

theorem ChannelWork.staying {account : Prop} (w : ChannelWork account n s t) (own : StaysAt t n) :
    Staying s t := fun stays m => by
  by_cases e : m = n
  · rw [e]
    exact own
  · exact (stays m).of_agree (by rw [w.others m e]) (by rw [w.others m e]) (.inl (w.flight m e))

theorem Beside.staying (h : Beside s t) : Staying s t := fun stays n =>
  (stays n).of_agree (by rw [State.channel_of_channels _ _ h.channels])
    (by rw [State.channel_of_channels _ _ h.channels]) (.inl (channelInFlight_of_port h.port n))

/-- A channel that faults stays in FAULTED. -/
theorem enterFaulted_staying (s : State) (n : ChannelNo) (k : FaultKind) : Staying s (enterFaulted n k s) :=
  (ChannelWork.enterFaulted (account := False) s n k).staying (quietAt_enterFaulted s n k).staysAt

/-! ### Before the end of an event, and the whole of it -/

/-- What an event does before its end. -/
structure LongEffect (s t : State) : Prop extends LongWork s t where
  staying : Staying s t

/-- What a whole event keeps (R73, R76, R95, R162, R167). -/
structure LongKept (s t : State) : Prop where
  busy : BusyInv s → BusyInv t
  sets : SetsInv s → SetsInv t

theorem LongEffect.trans (h : LongEffect s t) (g : LongEffect t u) : LongEffect s u :=
  ⟨h.toLongWork.trans g.toLongWork, g.staying ∘ h.staying⟩

theorem LongWork.beside (h : LongWork s t) (beside : Beside s t) : LongEffect s t := ⟨h, beside.staying⟩

/-- An event that has reached a channel goes on there. -/
theorem LongWork.goesOn (h : LongWork s t) (w : ChannelWork False n s t) : LongEffect s (Machine.carryOn n t) where
  toLongWork := h.trans (.carryOn t n)
  staying := (w.trans (ChannelWork.carryOn t n)).staying (carryOn_quiet t n).staysAt

theorem LongEffect.enterFaulted (n : ChannelNo) (k : FaultKind) (live : (s.channel n).state ≠ .aborting) :
    LongEffect s (enterFaulted n k s) :=
  ⟨.enterFaulted n k live, enterFaulted_staying s n k⟩

/-! ### The end of an event -/

theorem LongWork.endDrain (s : State) : LongWork s (endDrain s) where
  sets h := h.endDrain
  busy h := by
    unfold Machine.endDrain
    split
    · exact h
    · next l due => exact h.of_tables (loader := by rw [(drainedLoad_some due).1]; rfl)

theorem LongWork.endWriteEntry (s : State) : LongWork s (endWriteEntry s) where
  sets h := h.endWriteEntry
  busy h := by
    unfold Machine.endWriteEntry
    split
    · exact h
    · next c due =>
      obtain ⟨running, named⟩ := releasedWriteEntry_some due
      exact h.ended running (.inl named)

theorem LongWork.endLogStop (s : State) : LongWork s (endLogStop s) := by
  unfold Machine.endLogStop
  split
  · next due =>
    obtain ⟨c, running, named⟩ := logStop_of_due due
    exact ⟨fun h => h.ended running (.inr named), fun h => h.ended running (by simp [named])⟩
  · exact .refl s

theorem LongWork.beginRingRecord (s : State) : LongWork s (beginRingRecord s) := by
  unfold Machine.beginRingRecord
  split
  · exact .refl s
  · exact .of_tables

theorem LongWork.beginOverflowRecord (s : State) : LongWork s (beginOverflowRecord s) := by
  unfold Machine.beginOverflowRecord
  split
  · exact .refl s
  · exact .of_tables

theorem LongWork.logWork (s : State) : LongWork s (logWork s) :=
  (LongWork.endLogStop s).trans ((LongWork.beginRingRecord _).trans (.beginOverflowRecord _))

/-- A transaction issued changes the port, and an entry of a map set. -/
theorem Issues.frame (h : Issues s t) :
    ∃ p v, t = { s with port := p, sets := v } ∧ p.inFlight.isSome := by
  cases h with
  | beside p x flight => exact ⟨p, s.sets, rfl, by rw [flight]; rfl⟩
  | through p x m page flight => exact ⟨p, _, rfl, by rw [flight]; rfl⟩

theorem LongEffect.arbitrated (a : Arbitrated s t) : LongEffect s t := by
  induction a with
  | rests => exact ⟨.refl _, id⟩
  | @issues s t can issued =>
    have free := free_of_canGrant can
    refine ⟨⟨fun h => ?_, fun h => h.issues issued⟩, fun stays n => ?_⟩
    · obtain ⟨p, v, rfl, -⟩ := issued.frame
      exact h.of_tables
    · obtain ⟨p, v, rfl, -⟩ := issued.frame
      have idle : s.channelInFlight n = false := by simp only [State.channelInFlight, free]
      refine (stays n).of_agree rfl rfl ?_
      rw [idle]
      exact (Bool.eq_false_or_eq_true _).symm
  | refuses _ n k running _ _ ih => exact (LongEffect.enterFaulted n k (by simp [running])).trans ih

theorem LongEffect.arbitrate (s : State) : LongEffect s (arbitrate s) :=
  .arbitrated (arbitrate_arbitrated s)

theorem LongWork.refreshInterrupts (s : State) : LongWork s (refreshInterrupts s) := .of_tables

theorem finishEvent_effect (s : State) : LongEffect s (finishEvent s) :=
  ((LongWork.endDrain s).beside (endDrain_beside s)).trans <|
    ((LongWork.endWriteEntry _).beside (endWriteEntry_beside _)).trans <|
    ((LongWork.logWork _).beside (logWork_beside _)).trans <| (LongEffect.arbitrate _).trans <|
    ((LongWork.logWork _).beside (logWork_beside _)).trans <| (LongEffect.arbitrate _).trans <|
    (LongWork.refreshInterrupts _).beside (refreshInterrupts_beside _)

theorem Released.logWork (h : Released s) : Released (logWork s) :=
  h.of_command (logWork_frame s).1 (logWork_beside s).port (logWork_frame s).2.2

theorem Released.refreshInterrupts (h : Released s) : Released (refreshInterrupts s) :=
  h.of_command rfl rfl (.inl rfl)

/-- No drain and no WRITE ENTRY is left to end when an event ends (R85, R91). -/
theorem released_finishEvent (s : State) : Released (finishEvent s) := by
  have begun : Released (endWriteEntry (endDrain s)) := released_endWriteEntry (drainedLoad_endDrain s)
  have once := (arbitrate_granted _).released begun.logWork
  exact ((arbitrate_granted _).released once.logWork).refreshInterrupts

/-- A grant leaves the command port and the record under way as they are. -/
theorem Arbitrated.frame (a : Arbitrated s t) :
    t.command = s.command ∧ t.log.underWay = s.log.underWay := by
  induction a with
  | rests => exact ⟨rfl, rfl⟩
  | issues _ issued =>
    obtain ⟨p, v, rfl, -⟩ := issued.frame
    exact ⟨rfl, rfl⟩
  | refuses _ n k running _ _ ih =>
    rw [ih.1, ih.2, enterFaulted_eq]
    simp [running]

/-- After the grants of a turn no LOG STOP is left to end. -/
theorem logStopDue_arbitrate (quiet : LogQuiet s) : logStopDue (arbitrate s) = false := by
  obtain ⟨command, under⟩ := (arbitrate_arbitrated s).frame
  have stop := quiet.stop
  unfold logStopDue logStopWaits at stop ⊢
  rwa [command, under]

/-- No LOG STOP is left to end when an event ends (R148). -/
theorem logStopDue_finishEvent (s : State) : logStopDue (finishEvent s) = false := by
  have still : ∀ a, logStopDue (refreshInterrupts a) = logStopDue a := fun _ => rfl
  rw [finishEvent, still, logStopDue_arbitrate (logWork_quiet _)]

/-- Every event that has an end leaves the command in progress waiting (R167). -/
theorem LongEffect.finishEvent (e : LongEffect s t) : LongKept s (finishEvent t) where
  sets h := (e.trans (finishEvent_effect t)).sets h
  busy h := by
    have whole := e.trans (finishEvent_effect t)
    exact (whole.busy h.fits).busyInv (whole.staying h.staysAt) (released_finishEvent t).rewrite
      (logStopDue_finishEvent t)

theorem LongWork.finishChannelEvent (h : LongWork s t) (w : ChannelWork False n s t) :
    LongKept s (finishChannelEvent n t) :=
  (h.goesOn w).finishEvent

/-! ### Events without an end -/

theorem LongKept.refl (s : State) : LongKept s s := ⟨id, id⟩

/-- A row that acts where its condition holds, and changes nothing elsewhere. -/
theorem LongKept.ite {p : Prop} [Decidable p] (acts : p → LongKept s t) :
    LongKept s (if p then t else s) := by
  split
  · next h => exact acts h
  · exact .refl s

/-- What a command in progress waits for is seen in the channels, the load, the port and the record under way. -/
theorem BusyInv.of_tables (h : BusyInv s) (channels : t.channels = s.channels := by rfl)
    (command : t.command.inProgress = s.command.inProgress := by rfl)
    (loader : t.loader = s.loader := by rfl) (port : t.port = s.port := by rfl)
    (under : t.log.underWay = s.log.underWay := by rfl) : BusyInv t where
  waits l running := by
    have waits := h.waits l (command ▸ running)
    unfold waitsFor at waits ⊢
    simpa only [State.channel_of_channels s _ channels, channelInFlight_of_port port, loader,
      State.entryInUse, port, under] using waits
  halting := (h.fits.of_tables channels command (by rw [loader])).halting
  aborting := (h.fits.of_tables channels command (by rw [loader])).aborting
  loading := (h.fits.of_tables channels command (by rw [loader])).loading

theorem LongKept.of_tables (channels : t.channels = s.channels := by rfl) (sets : t.sets = s.sets := by rfl)
    (loader : t.loader = s.loader := by rfl) (port : t.port = s.port := by rfl)
    (command : t.command.inProgress = s.command.inProgress := by rfl)
    (under : t.log.underWay = s.log.underWay := by rfl) : LongKept s t :=
  ⟨fun h => h.of_tables channels command loader port under, fun h => h.of_tables sets loader port command⟩

/-- With the port IDLE nothing waits (R162). -/
theorem BusyFits.working (h : BusyFits s) (idle : PortIdle s) (n : ChannelNo) :
    Working (s.channel n).state := by
  have off : ∀ cmd, commandOn s cmd n ≠ true := fun cmd on => by
    obtain ⟨l, running, -⟩ := commandOn_iff.mp on
    rw [idle] at running
    cases running
  exact ⟨fun halting => off _ (h.halting n halting), fun aborting => off _ (h.aborting n aborting).1⟩

theorem BusyFits.loader_none (h : BusyFits s) (idle : PortIdle s) : s.loader = none := by
  rw [← Option.not_isSome_iff_eq_none]
  intro some
  obtain ⟨l, running, -⟩ := h.loading some
  rw [idle] at running
  cases running

theorem BusyFits.busyInv_idle (h : BusyFits s) (idle : PortIdle s) : BusyInv s where
  waits l running := by rw [idle] at running; cases running
  halting := h.halting
  aborting := h.aborting
  loading := h.loading

end Sys2Proof.Machine
end

section
/-! SUPPORT. What the link, the completions, the host commands and the timer keep of the command in progress and of
the map sets: every step keeps both (O57). -/

namespace Sys2Proof.Machine

-- The proofs are elaborated in turn: side by side their threads outgrow the check's memory limit.
set_option Elab.async false

variable {s t : State} {n : ChannelNo}

/-! ### The link (R50, R51) -/

theorem LongEffect.of_slots (channels : t.channels = s.channels := by rfl) (sets : t.sets = s.sets := by rfl)
    (loader : t.loader = s.loader := by rfl) (port : t.port = s.port := by rfl)
    (command : t.command.inProgress = s.command.inProgress := by rfl) : LongEffect s t where
  toLongWork := .of_tables channels sets loader port command
  staying stays n := (stays n).of_agree (by rw [State.channel_of_channels _ _ channels])
    (by rw [State.channel_of_channels _ _ channels]) (.inl (channelInFlight_of_port port n))

theorem LongEffect.present (s : State) (n : ChannelNo) (r : LinkRequest) : LongEffect s (present n r s) :=
  (LongWork.putChannel s n _).goesOn (.putChannel s n _)

theorem LongEffect.arrive (s : State) (n : ChannelNo) (r : LinkRequest) : LongEffect s (arrive n r s) := by
  unfold Machine.arrive
  split
  · exact .of_slots
  · split
    · exact .of_slots
    · exact LongEffect.trans (t := raiseLines n r s) .of_slots (.present _ n r)

theorem LongEffect.arriveFail (s : State) (n : ChannelNo) : LongEffect s (arriveFail n s) := by
  unfold Machine.arriveFail
  split
  · exact .of_slots
  · exact LongEffect.trans (t := raiseLines n .fail s) .of_slots (.present _ n .fail)

theorem LongEffect.lowerRequestValid (s : State) (n : ChannelNo) :
    LongEffect s (lowerRequestValid n s) := by
  unfold Machine.lowerRequestValid
  dsimp only
  split
  · split
    · exact .of_slots
    · next r _ =>
      exact LongEffect.trans (t := s.putSlot n { s.slot n with
        lines := some r, answerValid := false, early := none }) .of_slots (.present _ n r)
  · exact .of_slots

/-! ### The channels' completions (R34, R59, R62, R106) -/

theorem LongWork.acceptDescriptor (n : ChannelNo) (words : List Word)
    (working : Working (s.channel n).state) : LongWork s (acceptDescriptor n words s) := by
  unfold Machine.acceptDescriptor
  split
  · exact enterFaulted n _ working.2
  · exact putWorking s n _ working
  · unfold acceptLinkOnly
    dsimp only
    split
    · exact (putChannel s n _).trans (followLink n _ (by simpa using working))
    · exact (putChannel s n _).trans (enterFaulted n _ (by simpa using working.2))

theorem LongWork.descWordArrives (n : ChannelNo) (w : Word) (working : Working (s.channel n).state) :
    LongWork s (descWordArrives n w s) := by
  have kept : LongWork s (keepDescWord n w s) := putChannel s n _
  unfold Machine.descWordArrives
  dsimp only
  split
  · exact (kept.trans (putChannel _ n _)).trans
      (acceptDescriptor n _ (by simpa [dropFetched, keepDescWord] using working))
  · exact kept

theorem LongWork.deliverDescRead (s : State) (n : ChannelNo) (r : BusRead) :
    LongWork s (deliverDescRead n r s) := by
  unfold Machine.deliverDescRead
  split
  · next fetching =>
    split
    · exact descWordArrives n _ (by simp [fetching, Working])
    · exact enterFaulted n _ (by simp [fetching])
  · next halting =>
    split
    · exact putChannel s n _
    · exact enterFaulted n _ (by simp [halting])
  · exact refl s

theorem ne_aborting_of_takesData (takes : takesData (s.channel n).state = true) :
    (s.channel n).state ≠ .aborting := fun e => by
  rw [e] at takes
  cases takes

theorem LongWork.deliverDataWrite (s : State) (n : ChannelNo) (r : BusWrite) :
    LongWork s (deliverDataWrite n r s) := by
  unfold Machine.deliverDataWrite
  split
  · next takes =>
    split
    · exact putChannel s n _
    · exact enterFaulted n _ (ne_aborting_of_takesData takes)
  · exact refl s

theorem LongWork.deliverDataRead (s : State) (n : ChannelNo) (r : BusRead) :
    LongWork s (deliverDataRead n r s) := by
  unfold Machine.deliverDataRead
  split
  · next takes =>
    split
    · exact putChannel s n _
    · exact enterFaulted n _ (ne_aborting_of_takesData takes)
  · exact refl s

theorem LongWork.freePort (s : State) : LongWork s (freePort s) :=
  ⟨fun h => h.of_tables, fun h => h.freePort⟩

/-- A port freed of a transaction that no channel waits for. -/
theorem LongEffect.freePort (idle : ∀ m, s.channelInFlight m = false) : LongEffect s (freePort s) :=
  ⟨.freePort s, fun stays m => (stays m).of_agree rfl rfl (.inl (idle m).symm)⟩

/-- A completion of a channel's transaction is handed back: delivered, or its end alone, or nothing (R106). -/
theorem LongEffect.handBack {x : Transaction} (flight : s.port.inFlight = some x)
    (requester : x.purpose.requester = some n) {a : State} (marked : Beside (Machine.freePort s) a)
    (kept : LongWork s a) {deliver : State → State} (delivered : LongWork a (deliver a))
    (work : ChannelWork False n a (deliver a)) : LongEffect s (handBack n x.delivery deliver a) := by
  have freed : ChannelWork False n s a := (ChannelWork.freePort flight requester).trans marked.work
  unfold Machine.handBack
  cases e : x.delivery with
  | deliver => exact (kept.trans delivered).goesOn (freed.trans work)
  | discard => exact kept.goesOn freed
  | orphan =>
    have idle : ∀ m, s.channelInFlight m = false := fun m => by simp [State.channelInFlight, flight, e]
    exact ⟨kept, fun stays => marked.staying ((LongEffect.freePort idle).staying stays)⟩

theorem LongKept.completeDescRead (s : State) (r : BusRead) : LongKept s (completeDescRead r s) := by
  unfold Machine.completeDescRead
  split
  · next n a d flight =>
    exact (LongEffect.handBack flight rfl (a := freePort s) {} (.freePort s) (.deliverDescRead _ n r)
      (.deliverDescRead _ n r False.elim)).finishEvent
  · exact .refl s

/-- A write that completes marks an entry of a set into which no load reads (R82, R84). -/
theorem LongWork.setModified {m : SetNo} {p : PageNo} {w : Word} {a : PhysAddr} {d : Delivery}
    (flight : s.port.inFlight = some ⟨.dataWrite n m p w, a, d⟩) :
    LongWork s (setModified m p (Machine.freePort s)) where
  busy h := h.of_tables
  sets h := h.freePort.mark m p (fun _ => rfl) fun l load reading named => by
    have unused := (transactionBeside_iff.mp (h.beside _ flight)).2 l load reading
    simp [Transaction.throughSet, Purpose.through, named] at unused

theorem LongKept.completeDataWrite (s : State) (r : BusWrite) : LongKept s (completeDataWrite r s) := by
  unfold Machine.completeDataWrite
  split
  · next n m p w a d flight =>
    dsimp only
    split
    · exact (LongEffect.handBack flight rfl (a := Machine.setModified m p (freePort s)) {} (.setModified flight)
        (.deliverDataWrite _ n r) (.deliverDataWrite _ n r)).finishEvent
    · exact (LongEffect.handBack flight rfl (a := freePort s) {} (.freePort s)
        (.deliverDataWrite _ n r) (.deliverDataWrite _ n r)).finishEvent
  · exact .refl s

theorem LongKept.completeDataRead (s : State) (r : BusRead) : LongKept s (completeDataRead r s) := by
  unfold Machine.completeDataRead
  split
  · next n m p a d flight =>
    exact (LongEffect.handBack flight rfl (a := freePort s) {} (.freePort s) (.deliverDataRead _ n r)
      (.deliverDataRead _ n r)).finishEvent
  · exact .refl s

/-! ### The completions of the loader and the log writer (R86 to R88, R138 to R145) -/

/-- LOAD MAP ends with its load (R87, R88). -/
theorem BusyFits.loaded (h : BusyFits s) (load : s.loader.isSome)
    (channels : t.channels = s.channels := by rfl) (command : t.command.inProgress = none := by rfl)
    (loader : t.loader = none := by rfl) : BusyFits t := by
  obtain ⟨l, running, named⟩ := h.loading load
  have off : ∀ cmd n, cmd ≠ .loadMap → commandOn s cmd n ≠ true := fun cmd n other on => by
    obtain ⟨l', running', named', -⟩ := commandOn_iff.mp on
    cases running.symm.trans running'
    exact other (named'.symm.trans named)
  refine ⟨fun l running => ?_, fun n halting => ?_, fun n aborting => ?_, fun some => ?_⟩
  · rw [command] at running
    cases running
  · rw [State.channel_of_channels _ _ channels] at halting
    exact absurd (h.halting n halting) (off _ n (by simp))
  · rw [State.channel_of_channels _ _ channels] at aborting
    exact absurd (h.aborting n aborting).1 (off _ n (by simp))
  · rw [loader] at some
    cases some

theorem BusyFits.deliverMapRead (h : BusyFits s) (r : BusRead) : BusyFits (deliverMapRead r s) := by
  unfold Machine.deliverMapRead
  split
  · next l w load =>
    have some : s.loader.isSome := by rw [load]; rfl
    unfold fillEntry
    dsimp only
    split
    · exact h.loaded some
    · exact h.of_tables (loader := by rw [load]; rfl)
  · next l load => exact h.loaded (by rw [load]; rfl)
  · exact h

theorem LongKept.completeMapRead (s : State) (r : BusRead) : LongKept s (completeMapRead r s) := by
  unfold Machine.completeMapRead
  split
  · next a d flight =>
    have freed : LongEffect s (freePort s) :=
      .freePort fun m => channelInFlight_of_requester flight nofun
    split
    · next deliver =>
      subst deliver
      refine LongEffect.finishEvent ⟨⟨fun h => (freed.busy h).deliverMapRead r, fun h => ?_⟩,
        (deliverMapRead_beside _ r).staying ∘ freed.staying⟩
      refine h.freePort.deliverMapRead (fun l load => ?_) rfl r
      obtain ⟨l', load', reading⟩ := (transactionBeside_iff.mp (h.beside _ flight)).1 rfl rfl
      cases load.symm.trans load'
      exact reading
    · exact freed.finishEvent
  · exact .refl s

theorem LongEffect.markLogged (s : State) (n : ChannelNo) : LongEffect s (markLogged n s) := by
  unfold Machine.markLogged
  split
  · exact ⟨.putChannel s n _, fun stays => (ChannelWork.putChannel (account := False) s n _).staying
      ((stays n).of_agree (by simp) (by simp) (.inl rfl)) stays⟩
  · exact .of_slots

theorem LongEffect.deliverLogWrite (s : State) (r : BusWrite) : LongEffect s (deliverLogWrite r s) := by
  unfold Machine.deliverLogWrite
  split
  · unfold logWordDone
    split
    · split
      · exact (LongEffect.markLogged s _).trans .of_slots
      · unfold finishOverflowRecord
        dsimp only
        split <;> exact .of_slots
    · exact .of_slots
  · exact .of_slots
  · exact .of_slots

theorem LongKept.completeLogWrite (s : State) (r : BusWrite) : LongKept s (completeLogWrite r s) := by
  unfold Machine.completeLogWrite
  split
  · next w a d flight =>
    have freed : LongEffect s (freePort s) :=
      .freePort fun m => channelInFlight_of_requester flight nofun
    split
    · exact (freed.trans (.deliverLogWrite _ r)).finishEvent
    · exact freed.finishEvent
  · exact .refl s

end Sys2Proof.Machine
end

section
/-! SUPPORT. What the host commands keep of the command in progress and of the map sets (for O57). -/

namespace Sys2Proof.Machine

-- The proofs are elaborated in turn: side by side their threads outgrow the check's memory limit.
set_option Elab.async false

variable {s t : State} {n : ChannelNo}

/-! ### CONTINUE (R22, R23) -/

theorem LongWork.restartFetch (n : ChannelNo) (working : Working (s.channel n).state) :
    LongWork s (restartFetch n s) := by
  rw [restartFetch_eq]
  exact (discardTransaction s n).trans (putWorking _ n _ (by simpa using working))

theorem LongWork.continueFrom (s : State) (n : ChannelNo) : LongWork s (continueFrom n s) := by
  unfold Machine.continueFrom
  dsimp only
  split
  · next halted _ => exact putWorking s n _ (by simp [halted, Working])
  · next halted _ => exact restartFetch n (by simp [halted, Working])
  · next holding _ => exact settlingEnds (settleSelect_ends s n _) (by simp [holding, Working])
  · next fetching => exact restartFetch n (by simp [fetching, Working])
  · exact refl s

/-! ### ABORT (R24) -/

theorem channel_enterAborting (s : State) (n m : ChannelNo) : (enterAborting n s).channel m =
    if m = n then { (s.channel n).toAborting with request := none } else s.channel m := by
  rw [enterAborting_eq]
  exact State.channel_putChannel s n m _

/-! ### LOAD MAP (R84) -/

/-- LOAD MAP forms the load, and a drain that nothing holds ends at once (R84, R85). -/
theorem takeLoadMap_eq (l : Latched) (a : State) : takeLoadMap l a = finishEvent (endDrain
    { a.putSet (setOfOperand l.a) { a.mapSet (setOfOperand l.a) with state := .loading } with
      loader := some (newLoader l) }) := by
  generalize formed : ({ a.putSet (setOfOperand l.a) { a.mapSet (setOfOperand l.a) with state := .loading } with
      loader := some (newLoader l) } : State) = b
  have load : b.loader = some (newLoader l) := by rw [← formed]
  have used : b.setInUse (newLoader l).set = a.setInUse (newLoader l).set := by rw [← formed]; rfl
  have taken : takeLoadMap l a =
      finishEvent (if a.setInUse (newLoader l).set then b else enterReading (newLoader l) b) := by
    rw [← formed]
    rfl
  rw [taken]
  have phase : (newLoader l).phase = .draining := rfl
  unfold endDrain drainedLoad
  cases busy : a.setInUse (newLoader l).set <;> simp [load, used, busy, phase]

theorem BusyFits.not_loading (h : BusyFits s) (idle : PortIdle s) : ¬ s.loader.isSome := by
  simp [h.loader_none idle]

/-! ### A command that begins, and one that completes on the event of its write (R163, R166) -/

section Commands

variable (idle : PortIdle s)
include idle

theorem LongKept.afterCommand (code : BitVec 8) (r : ResultCode) (x y z : Word) :
    LongKept s (refreshInterrupts (afterCommand code r x y z s)) :=
  .of_tables (command := idle.symm)

/-- A command that completes on the event of its write and leaves its channel with no command of its own. -/
theorem LongKept.putWorking (n : ChannelNo) (c : Channel) (channels : t.channels = (s.putChannel n c).channels)
    (after : Working c.state := by simp [Working]) (sets : t.sets = s.sets := by rfl)
    (loader : t.loader = s.loader := by rfl) (port : t.port = s.port := by rfl)
    (command : t.command.inProgress = none := by rfl) : LongKept s t where
  busy h := by
    have own : t.channel n = c :=
      (State.channel_of_channels _ _ channels).trans (State.channel_putChannel_self s n c)
    have others : ∀ m, m ≠ n → t.channel m = s.channel m := fun m e =>
      (State.channel_of_channels _ _ channels).trans (State.channel_putChannel_of_ne s n m c e)
    exact (h.fits.of_working (h.fits.working idle n) (own ▸ after) others (command.trans idle.symm)
      (by rw [loader])).busyInv_idle command
  sets h := h.of_tables sets loader port (command.trans idle.symm)

/-- While a command has begun the sets are all READY, and a WRITE ENTRY names a page below its limit (R83). -/
theorem SetsInv.duringCommand (h : SetsInv s) (cmd : HostCommand)
    (range : operandsInRange (latch cmd s) s = true) : SetsInv (duringCommand cmd s) := by
  refine h.of_frame (flight := h.beside) (command := .inr ⟨h.loader_none_of_idle idle, ?_⟩)
  rintro c running
  cases running
  by_cases named : cmd = .writeEntry
  · subst named
    obtain ⟨-, below, page⟩ := (operandsInRange_iff s .writeEntry).mp range
    have small : (pageOfOperand s.command.operandB).val = s.command.operandB.toNat := Nat.mod_eq_of_lt page
    simpa [writeEntryFits, small] using below
  · simp [writeEntryFits, named]

/-- A command on channel `n` begins, and takes the channel to HALTING or ABORTING (R18, R24). -/
theorem BusyFits.began (h : BusyFits s) {l : Latched} (running : t.command.inProgress = some l)
    (operand : isChannel l.a = true) (named : channelOfOperand l.a = n)
    (own : l.command = .halt ∧ (t.channel n).state = .halting ∨
      l.command = .abort ∧ (t.channel n).state = .aborting ∧ (t.channel n).pendingEvent = none)
    (others : ∀ m, m ≠ n → t.channel m = s.channel m) (loader : t.loader = s.loader) : BusyFits t := by
  have working : ∀ m, m ≠ n → Working (t.channel m).state := fun m e => by
    rw [others m e]
    exact h.working idle m
  have on : commandOn t l.command n = true :=
    commandOn_iff.mpr ⟨l, running, rfl, named ▸ channelOfOperand_of_isChannel operand⟩
  refine ⟨fun l' running' => ?_, fun m halting => ?_, fun m aborting => ?_, fun some => ?_⟩
  · cases running.symm.trans running'
    rcases own with ⟨cmd, state⟩ | ⟨cmd, state, -⟩ <;> simp [NamesWork, cmd, named, state, operand]
  · by_cases e : m = n
    · subst e
      rcases own with ⟨cmd, -⟩ | ⟨-, state, -⟩
      · exact cmd ▸ on
      · rw [halting] at state
        cases state
    · exact absurd halting (working m e).1
  · by_cases e : m = n
    · subst e
      rcases own with ⟨-, state⟩ | ⟨cmd, -, slot⟩
      · rw [aborting] at state
        cases state
      · exact ⟨cmd ▸ on, slot⟩
    · exact absurd aborting (working m e).2
  · rw [loader, h.loader_none idle] at some
    cases some

/-- A command of no channel begins, and waits. -/
theorem BusyFits.waitsAlone (h : BusyFits s) {l : Latched} (running : t.command.inProgress = some l)
    (named : NamesWork t l) (channels : t.channels = s.channels)
    (loading : t.loader.isSome → l.command = .loadMap) : BusyFits t := by
  have working : ∀ m, Working (t.channel m).state := fun m => by
    rw [State.channel_of_channels _ _ channels]
    exact h.working idle m
  refine ⟨fun l' running' => ?_, fun m halting => absurd halting (working m).1,
    fun m aborting => absurd aborting (working m).2, fun some => ⟨l, running, loading some⟩⟩
  cases running.symm.trans running'
  exact named

/-! ### The channel commands (R15 to R27) -/

theorem LongKept.takeBind : LongKept s (takeBind (latch .bind s) (duringCommand .bind s)) :=
  .putWorking idle (channelOfOperand s.command.operandA) _ rfl

theorem LongKept.takeUnbind : LongKept s (takeUnbind (latch .unbind s) (duringCommand .unbind s)) :=
  .putWorking idle (channelOfOperand s.command.operandA) _ rfl (by simp [Working, Channel.reset])

theorem LongKept.takeClearFault :
    LongKept s (takeClearFault (latch .clearFault s) (duringCommand .clearFault s)) :=
  .putWorking idle (channelOfOperand s.command.operandA) _ rfl (by simp [Working, Channel.toCleared])

/-- A command that completes before its channel goes on leaves the port IDLE, as it was (R166). -/
theorem LongWork.completeDuring (cmd : HostCommand) (r : ResultCode) :
    LongWork s (completeCommand r (duringCommand cmd s)) :=
  .of_tables (command := idle.symm)

theorem LongKept.takeStart (check : stateCheck (latch .start s) s = none) :
    LongKept s (takeStart (latch .start s) (duringCommand .start s)) := by
  have state : (s.channel (channelOfOperand s.command.operandA)).state = .idle := by
    simpa [stateCheck, latch, badStateUnless_none] using check
  refine LongWork.finishChannelEvent (((LongWork.completeDuring idle .start .ok).trans
    (.putChannel _ _ _)).trans (.enterFetching _ _ ?_)) ?_
  · simp [latch, Working, state]
  · exact ChannelWork.trans .of_tables
      ((ChannelWork.beginRun (completeCommand .ok (Machine.duringCommand .start s)) _).trans
        (.putFetched _ _ _ fun h => .of_state nofun h.bound))

theorem LongKept.takeHalt (check : stateCheck (latch .halt s) s = none)
    (range : operandsInRange (latch .halt s) s = true) :
    LongKept s (takeHalt (latch .halt s) (duringCommand .halt s)) := by
  have state : (s.channel (channelOfOperand s.command.operandA)).state = .fetching ∨
      (s.channel (channelOfOperand s.command.operandA)).state = .running := by
    simpa [stateCheck, latch, badStateUnless_none] using check
  refine LongWork.finishChannelEvent (s := s) ⟨fun h => ?_, fun h => ?_⟩
    (ChannelWork.trans .of_tables (.halt (s := Machine.duringCommand .halt s) state))
  · exact h.began idle (l := latch .halt s) rfl range rfl (.inl ⟨rfl, by simp⟩)
      (fun m e => State.channel_putChannel_of_ne (Machine.duringCommand .halt s) _ m _ e) rfl
  · exact (h.duringCommand idle .halt range).of_tables

theorem LongKept.takeContinue :
    LongKept s (takeContinue (latch .continueChannel s) (duringCommand .continueChannel s)) :=
  ((LongWork.completeDuring idle .continueChannel .ok).trans (.continueFrom _ _)).finishChannelEvent
    (ChannelWork.trans .of_tables (.continueFrom False.elim))

theorem LongKept.takeAbort (range : operandsInRange (latch .abort s) s = true) :
    LongKept s (takeAbort (latch .abort s) (duringCommand .abort s)) := by
  refine LongWork.finishChannelEvent (s := s) ⟨fun h => ?_, fun h => ?_⟩
    (ChannelWork.trans .of_tables (.enterAborting (Machine.duringCommand .abort s) _))
  · refine h.began idle (l := latch .abort s) (by rw [enterAborting_eq]; rfl) range rfl (.inr ⟨rfl, ?_⟩)
      (fun m e => ?_) (by rw [enterAborting_eq]; rfl)
    · rw [channel_enterAborting, if_pos rfl]
      exact ⟨rfl, rfl⟩
    · rw [channel_enterAborting, if_neg e]
      rfl
  · have turned := (LongWork.turnAway (Machine.duringCommand .abort s)
      (channelOfOperand s.command.operandA)).sets (h.duringCommand idle .abort range)
    exact (turned.discardTransaction _).of_tables

/-! ### The map commands (R84, R90) -/

/-- LOAD MAP forms a load beside sets that are all READY (R84). -/
theorem SetsInv.formLoad (h : SetsInv s) (range : operandsInRange (latch .loadMap s) s = true)
    (sets : t.sets = (s.putSet (setOfOperand s.command.operandA)
      { s.mapSet (setOfOperand s.command.operandA) with state := .loading }).sets)
    (loader : t.loader = some (newLoader (latch .loadMap s))) (port : t.port = s.port)
    (running : t.command.inProgress = some (latch .loadMap s)) : SetsInv t := by
  have none := h.loader_none_of_idle idle
  obtain ⟨-, source, some, limit, image⟩ := (operandsInRange_iff s .loadMap).mp range
  have newLimit : (s.command.operandC.setWidth 7).toNat = s.command.operandC.toNat :=
    (BitVec.toNat_setWidth ..).trans (Nat.mod_eq_of_lt (by omega))
  have start : (s.command.operandB.setWidth 24).toNat = s.command.operandB.toNat :=
    (BitVec.toNat_setWidth ..).trans (Nat.mod_eq_of_lt (by omega))
  refine h.loads (l := newLoader (latch .loadMap s)) sets loader (fun j _ => h.ready j (by simp [none])) (h.limit _)
    ⟨BitVec.lt_def.mpr ?_, ?_, ?_, rfl, nofun⟩ (fun y flying => ?_) ⟨_, running, rfl⟩
  · show 0 < (s.command.operandC.setWidth 7).toNat
    omega
  · show (s.command.operandC.setWidth 7).toNat ≤ 64
    omega
  · show (s.command.operandB.setWidth 24).toNat + (s.command.operandC.setWidth 7).toNat ≤ 2 ^ 24
    omega
  · have beside := (transactionBeside_iff.mp (h.beside y (port ▸ flying))).1
    refine transactionBeside_iff.mpr ⟨fun read deliver => ?_, fun l load reading => ?_⟩
    · obtain ⟨l, load, -⟩ := beside read deliver
      rw [none] at load
      cases load
    · cases loader.symm.trans load
      cases reading

theorem LongKept.takeLoadMap (range : operandsInRange (latch .loadMap s) s = true) :
    LongKept s (takeLoadMap (latch .loadMap s) (duringCommand .loadMap s)) := by
  rw [takeLoadMap_eq]
  refine LongEffect.finishEvent (s := s) (LongEffect.trans (s := s)
    ⟨⟨fun h => ?_, fun h => ?_⟩, fun stays n => ?_⟩ ((LongWork.endDrain _).beside (endDrain_beside _)))
  · exact BusyFits.waitsAlone idle h (l := latch .loadMap s) rfl rfl rfl fun _ => rfl
  · exact SetsInv.formLoad idle h range rfl rfl rfl rfl
  · exact (stays n).of_agree rfl rfl (.inl rfl)

theorem LongKept.takeWriteEntry (range : operandsInRange (latch .writeEntry s) s = true) :
    LongKept s (takeWriteEntry (latch .writeEntry s) (duringCommand .writeEntry s)) := by
  unfold Machine.takeWriteEntry
  dsimp only
  split
  · next used =>
    refine ⟨fun h => ?_, fun h => h.duringCommand idle .writeEntry range⟩
    have fits : BusyFits (Machine.duringCommand .writeEntry s) :=
      h.fits.waitsAlone idle (l := latch .writeEntry s) rfl trivial rfl fun some =>
        absurd some (h.fits.not_loading idle)
    exact fits.busyInv (fun n => (h.staysAt n).of_agree rfl rfl (.inl rfl))
      (if_neg (by simpa [latch] using used)) rfl
  · refine ⟨fun h => h.of_tables (command := idle.symm), fun h => ?_⟩
    have during := h.duringCommand idle .writeEntry range
    have fits := during.writeEntry _ rfl
    exact (LongWork.refreshInterrupts _).sets (during.replaceEntry (h.loader_none_of_idle idle)
      (by simpa [writeEntryFits, latch] using fits) _)

/-! ### The log commands (R147 to R149) -/

theorem LongKept.takeSetLog : LongKept s (takeSetLog (latch .setLog s) (duringCommand .setLog s)) := by
  unfold Machine.takeSetLog
  exact LongEffect.finishEvent (.of_slots (command := idle.symm))

theorem LongKept.takeLogConsumed :
    LongKept s (takeLogConsumed (latch .logConsumed s) (duringCommand .logConsumed s)) := by
  unfold Machine.takeLogConsumed
  exact LongEffect.finishEvent (.of_slots (command := idle.symm))

theorem LongKept.takeLogStop (range : operandsInRange (latch .logStop s) s = true) :
    LongKept s (takeLogStop (latch .logStop s) (duringCommand .logStop s)) := by
  unfold Machine.takeLogStop
  split
  · next under =>
    refine ⟨fun h => ?_, fun h => h.duringCommand idle .logStop range⟩
    have fits : BusyFits (Machine.duringCommand .logStop s) :=
      h.fits.waitsAlone idle (l := latch .logStop s) rfl trivial rfl fun some =>
        absurd some (h.fits.not_loading idle)
    exact fits.busyInv (fun n => (h.staysAt n).of_agree rfl rfl (.inl rfl)) rfl (LogQuiet.of_underWay under).stop
  · exact .of_tables (command := idle.symm)

end Commands

/-! ### Presenting a command (R163 to R165) -/

theorem LongKept.takeCommand (idle : PortIdle s) (cmd : HostCommand)
    (range : operandsInRange (latch cmd s) s = true) (check : stateCheck (latch cmd s) s = none) :
    LongKept s (takeCommand cmd (latch cmd s) (duringCommand cmd s)) := by
  cases cmd with
  | bind => exact takeBind idle
  | unbind => exact takeUnbind idle
  | start => exact takeStart idle check
  | halt => exact takeHalt idle check range
  | continueChannel => exact takeContinue idle
  | abort => exact takeAbort idle range
  | clearFault => exact takeClearFault idle
  | readChannel => exact .afterCommand idle _ .ok _ _ _
  | loadMap => exact takeLoadMap idle range
  | writeEntry => exact takeWriteEntry idle range
  | readEntry => exact .afterCommand idle _ .ok _ _ _
  | probe => exact .afterCommand idle _ .ok _ _ _
  | setLog => exact takeSetLog idle
  | logStop => exact takeLogStop idle range
  | logConsumed => exact takeLogConsumed idle

theorem LongKept.presentCommand (s : State) (cmd : HostCommand) :
    LongKept s (presentCommand cmd (Machine.takeCommand cmd) s) := by
  by_cases idle : PortIdle s
  · cases check : commandCheck (latch cmd s) s with
    | some r =>
      rw [presentCommand_refused s cmd _ idle r check]
      exact .afterCommand idle _ _ _ _ _
    | none =>
      rw [presentCommand_taken s cmd _ idle check]
      unfold commandCheck at check
      split at check
      · next range => exact takeCommand idle cmd range check
      · cases check
  · rw [presentCommand_busy s cmd _ idle]
    exact .of_tables

theorem LongKept.writeCommand (s : State) (w : Word) : LongKept s (writeCommand w s) := by
  unfold Machine.writeCommand
  split
  · exact presentCommand s _
  · unfold presentUnknown
    split
    · exact .of_tables
    · next free => exact .afterCommand (by simpa [PortIdle] using free) _ .badCommand 0 0 0

end Sys2Proof.Machine
end

section
/-! SUPPORT. Every step keeps a command in progress waiting for what its rule names, and the map sets and the
loader record in agreement (O57). -/

namespace Sys2Proof.Machine

-- The proofs are elaborated in turn: side by side their threads outgrow the check's memory limit.
set_option Elab.async false

variable {s t : State} {n : ChannelNo}

/-! ### The event queue and the interval timer (R118, R153 to R159) -/

theorem LongWork.movePending (s : State) (n : ChannelNo) (r : EventRecord) :
    LongWork s (movePending n r s) :=
  (putChannel s n { s.channel n with pendingEvent := none } rfl fun _ => rfl).trans .of_tables

theorem LongKept.popEvent (s : State) : LongKept s (popEvent s) := by
  unfold Machine.popEvent
  split
  · exact .of_tables
  · next r rest _ =>
    have removed : LongEffect s (removeHead { s with readData := r.word1 }) := .of_slots
    dsimp only
    split
    · exact .of_tables
    · exact (removed.trans ((LongWork.movePending _ _ _).goesOn (.movePending _ _ _))).finishEvent

/-- Channels outside ABORTING that fault one after the other (R159). -/
theorem LongEffect.faultStalled (due : List ChannelNo) : ∀ s : State,
    (∀ n ∈ due, (s.channel n).state ≠ .aborting) → LongEffect s (faultStalled due s) := by
  induction due with
  | nil => exact fun s _ => ⟨.refl s, id⟩
  | cons n rest ih =>
    intro s live
    refine (LongEffect.enterFaulted n .stallTimeout (live n (by simp))).trans (ih _ fun m listed => ?_)
    rw [channel_enterFaulted]
    split
    · simp [faultedChannel]
    · exact live m (List.mem_cons_of_mem _ listed)

theorem LongEffect.timeOutStalled (s : State) : LongEffect s (timeOutStalled s) := by
  have order := orderByRank_perm (Config.tickOrder s.tickDraws) (stalledChannels s)
  refine LongEffect.trans (t := { s with tickDraws := s.tickDraws + 1 }) .of_slots
    (.faultStalled _ _ fun n listed => ?_)
  have running := running_of_stalled (List.mem_filter.mp (order.mem_iff.mp listed)).2
  rw [State.channel_with_tickDraws, running]
  simp

theorem LongEffect.ticked (s : State) : LongEffect s (ticked s) := by
  have state : ∀ n, ((Machine.ticked s).channel n).state = (s.channel n).state ∧
      ((Machine.ticked s).channel n).pendingEvent = (s.channel n).pendingEvent := fun n => by
    obtain ⟨x, e⟩ := tickChannel_eq (s.channel n)
    rw [channel_ticked, e]
    exact ⟨rfl, rfl⟩
  exact
    { busy := fun h => h.of_agree (fun n => (state n).1) (fun n _ empty => (state n).2.trans empty) rfl rfl
      sets := fun h => h.of_tables
      staying := fun stays n => (stays n).of_agree (state n).1 (state n).2 (.inl rfl) }

theorem LongKept.tickEvent (s : State) : LongKept s (tickEvent (restartPrescaler s)) := by
  have restarted : LongEffect s (restartPrescaler s) := .of_slots
  rw [tickEvent_eq]
  exact (restarted.trans ((LongEffect.ticked _).trans (.timeOutStalled _))).finishEvent

theorem LongKept.microsecond (s : State) : LongKept s (microsecond s) := by
  unfold Machine.microsecond
  split
  · exact .of_tables
  · exact tickEvent s

/-! ### Resets and the register window -/

/-- A part that has been reset is IDLE in every owner (R2, R162). -/
theorem busyInv_of_reset (channels : ∀ n, t.channel n = Channel.reset)
    (command : t.command.inProgress = none) (loader : t.loader = none) : BusyInv t where
  waits l running := by rw [command] at running; cases running
  halting n halting := by rw [channels n] at halting; cases halting
  aborting n aborting := by rw [channels n] at aborting; cases aborting
  loading some := by rw [loader] at some; cases some

theorem LongKept.powerOn (s : State) : LongKept s (powerOn s) where
  busy _ := busyInv_of_reset (channel_of_replicate rfl) rfl rfl
  sets _ := setsInv_reset.of_tables (t := Machine.powerOn s)

/-- Soft reset keeps the READY sets and clears the one that was being loaded (R76), and orphans the transaction
in flight (R110). -/
theorem SetsInv.softReset (h : SetsInv s) : SetsInv (softReset s) := by
  have fits : ∀ m, SetFits ((Machine.softReset s).mapSet m) ∧
      ((Machine.softReset s).mapSet m).state = .ready := fun m => by
    rw [mapSet_softReset, setAfterSoftReset]
    cases state : (s.mapSet m).state with
    | ready => exact ⟨h.setFits m, state⟩
    | loading => exact ⟨setFits_reset, rfl⟩
  refine .of_fits (fun m => (fits m).1) (fun m loading => ?_) nofun (fun y flying => ?_) nofun nofun
  · rw [(fits m).2] at loading
    cases loading
  · have flying : (portAfterSoftReset s.port).inFlight = some y := flying
    obtain ⟨x, -, rfl⟩ := Option.map_eq_some_iff.mp flying
    exact transactionBeside_iff.mpr ⟨nofun, nofun⟩

theorem LongKept.softReset (s : State) : LongKept s (softReset s) where
  busy _ := busyInv_of_reset (channel_of_replicate rfl) rfl rfl
  sets h := h.softReset

theorem LongKept.writeControl (s : State) (w : Word) : LongKept s (writeControl w s) := by
  unfold Machine.writeControl
  split
  · exact softReset s
  · exact LongEffect.finishEvent .of_slots

theorem LongKept.writeTimerPeriod (s : State) (w : Word) : LongKept s (writeTimerPeriod w s) := by
  unfold Machine.writeTimerPeriod
  split
  · exact .refl s
  · exact .of_tables

theorem LongKept.windowWrite (s : State) (offset : BitVec 5) (w : Word) :
    LongKept s (windowWrite offset w s) := by
  unfold Machine.windowWrite
  split
  · exact writeControl s w
  · exact .of_tables
  · exact writeCommand s w
  · exact .of_tables
  · exact .of_tables
  · exact .of_tables
  · exact .of_tables
  · exact writeTimerPeriod s w
  · exact .refl s

/-! ### Every command -/

/-- Every command keeps the command in progress waiting, and the map sets and the load in agreement. -/
theorem LongKept.exec (s : State) (c : Instr) (run : exec c s = .next t) : LongKept s t := by
  cases c <;> injection run with run <;> subst run
  case powerOnReset => exact powerOn s
  case softReset w => exact softReset s
  case offer n w => exact (LongEffect.arrive s n _).finishEvent
  case ask n => exact (LongEffect.arrive s n _).finishEvent
  case endBlock n => exact (LongEffect.arrive s n _).finishEvent
  case fail n => exact (LongEffect.arriveFail s n).finishEvent
  case requestValidFall n => exact (LongEffect.lowerRequestValid s n).finishEvent
  case descReadComplete r => exact completeDescRead s r
  case dataWriteComplete r => exact completeDataWrite s r
  case dataReadComplete r => exact completeDataRead s r
  case mapReadComplete r => exact completeMapRead s r
  case logWriteComplete r => exact completeLogWrite s r
  case grant => exact .ite fun _ => (LongEffect.arbitrate s).finishEvent
  case tick => exact tickEvent s
  case stallTimeout n =>
    exact .ite fun due => (LongEffect.enterFaulted n _ (by rw [running_of_stalled due]; simp)).finishEvent
  case ageCondition => exact .ite fun _ => .of_tables
  case bind => exact presentCommand s .bind
  case unbind => exact presentCommand s .unbind
  case start => exact presentCommand s .start
  case halt => exact presentCommand s .halt
  case continueChannel => exact presentCommand s .continueChannel
  case abort => exact presentCommand s .abort
  case clearFault => exact presentCommand s .clearFault
  case readChannel => exact presentCommand s .readChannel
  case loadMap => exact presentCommand s .loadMap
  case writeEntry => exact presentCommand s .writeEntry
  case readEntry => exact presentCommand s .readEntry
  case probe => exact presentCommand s .probe
  case setLog => exact presentCommand s .setLog
  case logStop => exact presentCommand s .logStop
  case logConsumed => exact presentCommand s .logConsumed
  case unknownCommand w => exact writeCommand s w
  case masterEnable w => exact writeControl s w
  case interruptEnable w => exact writeControl s w
  case interruptStatusClear w => exact .of_tables
  case pop => exact popEvent s
  case eventSettingsWrite w => exact .of_tables
  case timerPeriodWrite w => exact writeTimerPeriod s w
  case registerWrite offset w => exact windowWrite s offset w
  case waitingRequestMet n =>
    exact .ite fun _ => (LongWork.meetRequest s n).finishChannelEvent (.meetRequest s n)
  case waitingPost n =>
    exact .ite fun _ => ((LongWork.resumeSettling s n).trans (.leaveHalting _ n)).finishChannelEvent
      ((ChannelWork.resumeSettling s n).trans (.leaveHalting _ n))
  case blockComplete n =>
    exact .ite fun _ => (LongWork.completeBlock s n).finishChannelEvent (.completeBlock s n)
  case leaveHalting n =>
    exact .ite fun _ => (LongWork.leaveHalting s n).finishChannelEvent (.leaveHalting s n)
  case leaveAborting n =>
    exact .ite fun _ => (LongWork.leaveAborting s n).finishChannelEvent (.leaveAborting s n)
  case drainEnd =>
    exact .ite fun _ => ((LongWork.endDrain s).beside (endDrain_beside s)).finishEvent
  case writeEntryReplace =>
    exact .ite fun _ => ((LongWork.endWriteEntry s).beside (endWriteEntry_beside s)).finishEvent
  case logRecordBegin =>
    exact .ite fun _ => ((LongWork.beginRingRecord s).beside (beginRingRecord_beside s)).finishEvent
  case overflowRecordBegin =>
    exact .ite fun _ => ((LongWork.beginOverflowRecord s).beside (beginOverflowRecord_beside s)).finishEvent
  case logStopComplete =>
    exact .ite fun _ => ((LongWork.endLogStop s).beside (endLogStop_beside s)).finishEvent

/-- Settles O57: every command keeps the two invariants, each of them alone, and taking the command from the
queue of commands changes nothing else. -/
theorem longCommandsAndSetsKept : Obligations.LongCommandsAndSetsKept := by
  intro s t run
  rcases step_cases run with ⟨-, rfl⟩ | ⟨c, rest, -, run⟩
  · exact ⟨(LongKept.microsecond s).busy, (LongKept.microsecond s).sets⟩
  · have taken : LongKept s { s with pending := rest } := .of_tables
    have kept := LongKept.exec _ c run
    exact ⟨kept.busy ∘ taken.busy, kept.sets ∘ taken.sets⟩

end Sys2Proof.Machine
end

section
/-! SUPPORT. The map commands taken (O20, O21) and their ends (O45), the completions of the loader (O37), and the
completions that hand nothing back (O36). -/

namespace Sys2Proof.Machine

-- The proofs are elaborated in turn: side by side their threads outgrow the check's memory limit.
set_option Elab.async false

variable {s : State} {n : ChannelNo} {m : SetNo} {p : PageNo} {a : PhysAddr}

/-! ### What a load and a WRITE ENTRY look at -/

/-- The entry of an image word, as the claims write it (R180). -/
theorem entryOfImage_eq (w : Word) : entryOfImage w =
    { valid := w.getLsbD 31
      read := w.getLsbD 30
      write := w.getLsbD 29
      frame := w.extractLsb' 0 12
      referenced := false
      modified := false } := by
  have frame : w.setWidth 12 = w.extractLsb' 0 12 := by
    apply BitVec.eq_of_toNat_eq
    simp
  rw [entryOfImage, frame]

theorem setInUse_iff : s.setInUse m = true ↔
    ∃ t p, s.port.inFlight = some t ∧ t.purpose.through = some (m, p) := by
  unfold State.setInUse Transaction.throughSet
  cases s.port.inFlight with
  | none => simp
  | some t => cases h : t.purpose.through <;> simp [h, Prod.ext_iff]

theorem entryInUse_iff : s.entryInUse m p = true ↔
    ∃ t, s.port.inFlight = some t ∧ t.purpose.through = some (m, p) := by
  unfold State.entryInUse Transaction.throughEntry
  cases s.port.inFlight with
  | none => simp
  | some t => simp

/-! ### LOAD MAP and WRITE ENTRY taken (R84, R85, R90) -/

theorem newLoader_latch (set : s.command.operandA.toNat = m.val) : newLoader (latch .loadMap s) =
    { set := m
      source := s.command.operandB.setWidth 24
      newLimit := s.command.operandC.setWidth 7
      phase := .draining
      progress := 0 } := by
  rw [← setOfOperand_eq set]
  rfl

theorem endDrain_of_some {l : Loader} (due : drainedLoad s = some l) : endDrain s = enterReading l s := by
  simp only [endDrain, due]

/-- LOAD MAP as it is taken: the load is formed, and its drain ends at once where nothing holds it. -/
theorem exec_loadMap (idle : PortIdle s) (set : s.command.operandA.toNat = m.val)
    (some : 1 ≤ s.command.operandC.toNat) (limit : s.command.operandC.toNat ≤ 64)
    (image : s.command.operandB.toNat + s.command.operandC.toNat ≤ 2 ^ 24) :
    exec .loadMap s = .next (finishEvent (endDrain
      { (duringCommand .loadMap s).putSet m { s.mapSet m with state := .loading } with
        loader := Option.some (newLoader (latch .loadMap s)) })) := by
  have legal : LegalOperands .loadMap s :=
    ⟨set ▸ m.isLt, by have := s.command.operandB.isLt; omega, some, limit, image⟩
  have taken := exec_taken idle .loadMap (commandCheck_none_of_legal s _ (by simp) legal)
  rw [← setOfOperand_eq set]
  exact taken.trans (congrArg Host.Outcome.next (takeLoadMap_eq _ _))

theorem drainedLoad_of_used {l : Loader} (load : s.loader = some l) (used : s.setInUse l.set = true) :
    drainedLoad s = none := by
  simp [drainedLoad, load, used]

theorem drainedLoad_of_unused {l : Loader} (load : s.loader = some l) (phase : l.phase = .draining)
    (unused : s.setInUse l.set = false) : drainedLoad s = some l := by
  simp [drainedLoad, load, phase, unused]

/-- Settles O20: the load drains a transaction through its set, or its drain ends on the same event. -/
theorem loadMapTaken : Obligations.LoadMapTaken := by
  intro s m idle set some limit image
  rw [exec_loadMap idle set some limit image, newLoader_latch set]
  refine ⟨fun used => ?_, fun unused => ?_⟩ <;>
    refine congrArg Host.Outcome.next (congrArg finishEvent ?_)
  · have used : s.setInUse m = true := setInUse_iff.mpr used
    exact endDrain_of_none _ (drainedLoad_of_used rfl used)
  · have unused : s.setInUse m = false := Bool.eq_false_iff.mpr fun used => by
      obtain ⟨t, p, flight, through⟩ := setInUse_iff.mp used
      exact unused t p flight through
    rw [endDrain_of_some (drainedLoad_of_unused rfl rfl unused)]
    simp only [enterReading, State.mapSet_with_loader, State.mapSet_putSet_self]
    simp only [State.putSet, Vector.set_set]
    rfl

/-- Settles O21: the entry is replaced from the image, or the command is left in progress. -/
theorem writeEntryTaken : Obligations.WriteEntryTaken := by
  intro s m p idle set page below
  have legal : LegalOperands .writeEntry s :=
    ⟨set ▸ m.isLt, by rw [setOfOperand_eq set, page]; exact below, page ▸ p.isLt⟩
  have taken := exec_taken idle .writeEntry (commandCheck_none_of_legal s _ (by simp) legal)
  have names : setOfOperand (latch .writeEntry s).a = m ∧ pageOfOperand (latch .writeEntry s).b = p :=
    ⟨setOfOperand_eq set, pageOfOperand_eq page⟩
  constructor
  · intro used
    have used : (duringCommand .writeEntry s).entryInUse m p = true := entryInUse_iff.mpr used
    rw [← names.1, ← names.2] at used
    exact taken.trans (congrArg Host.Outcome.next (if_pos used))
  · intro unused
    have unused : ¬ (duringCommand .writeEntry s).entryInUse m p = true := fun used => by
      obtain ⟨t, flight, through⟩ := entryInUse_iff.mp used
      exact unused t flight through
    rw [← entryOfImage_eq]
    rw [← names.1, ← names.2] at unused ⊢
    exact taken.trans (congrArg Host.Outcome.next (if_neg unused))

/-! ### A drain and a rewrite end (R85, R91) -/

theorem exec_drainEnd (h : drainedLoad s ≠ none) :
    exec .drainEnd s = .next (finishEvent (endDrain s)) :=
  congrArg Host.Outcome.next (if_pos (Option.isSome_iff_ne_none.mpr h))

theorem exec_drainEnd_of_none (h : drainedLoad s = none) : exec .drainEnd s = .next s :=
  congrArg Host.Outcome.next (if_neg (by simp [h]))

theorem exec_writeEntryReplace (h : releasedWriteEntry s ≠ none) :
    exec .writeEntryReplace s = .next (finishEvent (endWriteEntry s)) :=
  congrArg Host.Outcome.next (if_pos (Option.isSome_iff_ne_none.mpr h))

theorem exec_writeEntryReplace_of_none (h : releasedWriteEntry s = none) :
    exec .writeEntryReplace s = .next s :=
  congrArg Host.Outcome.next (if_neg (by simp [h]))

theorem drainedLoad_of_held (h : ∀ l, s.loader = some l → l.phase = .reading ∨ s.setInUse l.set = true) :
    drainedLoad s = none := by
  unfold drainedLoad
  split
  · rfl
  · next l load => rcases h l load with phase | used <;> simp [*]

theorem releasedWriteEntry_of_held (h : ∀ l, s.command.inProgress = some l → l.command ≠ .writeEntry ∨
    s.entryInUse (setOfOperand l.a) (pageOfOperand l.b) = true) : releasedWriteEntry s = none := by
  unfold releasedWriteEntry
  split
  · rfl
  · next l running => rcases h l running with other | used <;> simp [*]

/-- Settles O45: the rows act on the load and on the command that nothing holds any longer. -/
theorem drainAndRewriteEnd : Obligations.DrainAndRewriteEnd := by
  refine fun s => ⟨fun l load phase unused => ?_, fun held => exec_drainEnd_of_none (drainedLoad_of_held held),
    fun l m p running named set page unused => ?_,
    fun held => exec_writeEntryReplace_of_none (releasedWriteEntry_of_held held)⟩
  · have due : drainedLoad s = some l := by simp [drainedLoad, load, phase, unused]
    rw [exec_drainEnd (by simp [due]), endDrain_of_some due]
    rfl
  · have due : releasedWriteEntry s = some l := by
      simp [releasedWriteEntry, running, named, setOfOperand_eq set, pageOfOperand_eq page, unused]
    rw [exec_writeEntryReplace (by simp [due]), ← entryOfImage_eq, ← setOfOperand_eq set,
      ← pageOfOperand_eq page, endWriteEntry, due]
    rfl

/-! ### A completion by the delivery of its transaction (R106) -/

section Completions

variable {d : Delivery} {x : Word}

theorem exec_descReadComplete_eq (r : BusRead)
    (flight : s.port.inFlight = some { purpose := .descRead n, address := a, delivery := d }) :
    exec (.descReadComplete r) s =
      .next (finishEvent (handBack n d (deliverDescRead n r) (freePort s))) := by
  show Host.Outcome.next (completeDescRead r s) = _
  simp only [completeDescRead, flight]

theorem exec_dataReadComplete_eq (r : BusRead)
    (flight : s.port.inFlight = some { purpose := .dataRead n m p, address := a, delivery := d }) :
    exec (.dataReadComplete r) s =
      .next (finishEvent (handBack n d (deliverDataRead n r) (freePort s))) := by
  show Host.Outcome.next (completeDataRead r s) = _
  simp only [completeDataRead, flight]

theorem exec_dataWriteComplete_eq (r : BusWrite)
    (flight : s.port.inFlight = some { purpose := .dataWrite n m p x, address := a, delivery := d }) :
    exec (.dataWriteComplete r) s = .next (finishEvent (handBack n d (deliverDataWrite n r)
      (if modifiedBy r d then setModified m p (freePort s) else freePort s))) := by
  show Host.Outcome.next (completeDataWrite r s) = _
  simp only [completeDataWrite, flight]

theorem exec_mapReadComplete_eq (r : BusRead)
    (flight : s.port.inFlight = some { purpose := .mapRead, address := a, delivery := d }) :
    exec (.mapReadComplete r) s =
      .next (finishEvent (if d = .deliver then deliverMapRead r (freePort s) else freePort s)) := by
  show Host.Outcome.next (completeMapRead r s) = _
  simp only [completeMapRead, flight]

theorem exec_logWriteComplete_eq (r : BusWrite)
    (flight : s.port.inFlight = some { purpose := .logWrite x, address := a, delivery := d }) :
    exec (.logWriteComplete r) s =
      .next (finishEvent (if d = .deliver then deliverLogWrite r (freePort s) else freePort s)) := by
  show Host.Outcome.next (completeLogWrite r s) = _
  simp only [completeLogWrite, flight]

end Completions

/-! ### Map image reads (R86 to R88) -/

/-- Settles O37: the entry of the progress is filled, and the last word or a bus error ends the load. -/
theorem mapReadCompletes : Obligations.MapReadCompletes := by
  rintro s l p a w flight load progress freed rfl filled rfl
  have page : (Fin.ofNat 64 l.progress.toNat : PageNo) = p := by
    rw [progress]
    exact Fin.ext (Nat.mod_eq_of_lt p.isLt)
  have load : (freePort s).loader = some l := load
  rw [exec_mapReadComplete_eq _ flight, exec_mapReadComplete_eq _ flight, if_pos rfl, if_pos rfl,
    ← entryOfImage_eq, ← page]
  simp only [deliverMapRead, load]
  refine ⟨fun more => ?_, fun last => ?_, rfl⟩
  · simp only [fillEntry, if_neg more]
    rfl
  · simp only [fillEntry, if_pos last, completeLoad, completeCommand_eq, updateEntry, State.mapSet_putSet_self,
      State.putSet_putSet]
    rfl

/-! ### Completions that hand nothing back (R82, R106, R110) -/

theorem deliverMapRead_of_none (r : BusRead) (none : s.loader = none) : deliverMapRead r s = s := by
  simp only [deliverMapRead, none]

theorem deliverLogWrite_of_none (r : BusWrite) (none : s.log.underWay = none) :
    deliverLogWrite r s = s := by
  simp only [deliverLogWrite, none]

/-- A channel is told only that its DISCARD transaction has ended (R106). -/
theorem finishEvent_handBack_discard (n : ChannelNo) (deliver : State → State) (s : State) :
    finishEvent (handBack n .discard deliver s) = finishChannelEvent n s := rfl

theorem handBack_orphan (n : ChannelNo) (deliver : State → State) (s : State) :
    handBack n .orphan deliver s = s := rfl

/-- A data write that a soft reset orphaned marks nothing (R82, R110). -/
theorem modifiedBy_orphan (r : BusWrite) : modifiedBy r .orphan = false := by
  simp [modifiedBy]

/-- A completion of a kind that is not in flight is not taken (R97, log entry 3). -/
theorem completeDescRead_stray (r : BusRead)
    (other : ∀ t, s.port.inFlight = some t → ∀ k, t.purpose ≠ .descRead k) : completeDescRead r s = s := by
  unfold completeDescRead
  split
  · next k _ _ flight => exact absurd rfl (other _ flight k)
  · rfl

theorem completeDataRead_stray (r : BusRead)
    (other : ∀ t, s.port.inFlight = some t → ∀ k i q, t.purpose ≠ .dataRead k i q) :
    completeDataRead r s = s := by
  unfold completeDataRead
  split
  · next k i q _ _ flight => exact absurd rfl (other _ flight k i q)
  · rfl

theorem completeDataWrite_stray (r : BusWrite)
    (other : ∀ t, s.port.inFlight = some t → ∀ k i q v, t.purpose ≠ .dataWrite k i q v) :
    completeDataWrite r s = s := by
  unfold completeDataWrite
  split
  · next k i q v _ _ flight => exact absurd rfl (other _ flight k i q v)
  · rfl

theorem completeMapRead_stray (r : BusRead)
    (other : ∀ t, s.port.inFlight = some t → t.purpose ≠ .mapRead) : completeMapRead r s = s := by
  unfold completeMapRead
  split
  · next flight => exact absurd rfl (other _ flight)
  · rfl

theorem completeLogWrite_stray (r : BusWrite)
    (other : ∀ t, s.port.inFlight = some t → ∀ v, t.purpose ≠ .logWrite v) : completeLogWrite r s = s := by
  unfold completeLogWrite
  split
  · next v _ _ flight => exact absurd rfl (other _ flight v)
  · rfl

/-- Settles O36: by delivery for each kind of transaction, and by kind for a stray completion. -/
theorem droppedCompletions : Obligations.DroppedCompletions := by
  rintro s n m p a x r b freed rfl
  refine ⟨fun flight => ?_, fun flight => ?_, fun flight => ⟨?_, ?_⟩, fun flight => ?_, fun flight => ?_,
    fun flight => ?_, fun flight => ?_, fun flight => ?_, fun flight none => ?_, fun flight none => ?_,
    fun other => congrArg Host.Outcome.next (completeDescRead_stray r other),
    fun other => congrArg Host.Outcome.next (completeDataRead_stray r other),
    fun other => congrArg Host.Outcome.next (completeDataWrite_stray b other),
    fun other => congrArg Host.Outcome.next (completeMapRead_stray r other),
    fun other => congrArg Host.Outcome.next (completeLogWrite_stray b other)⟩
  · rw [exec_descReadComplete_eq r flight, finishEvent_handBack_discard]
    rfl
  · rw [exec_dataReadComplete_eq r flight, finishEvent_handBack_discard]
    rfl
  · rw [exec_dataWriteComplete_eq _ flight, finishEvent_handBack_discard]
    rfl
  · rw [exec_dataWriteComplete_eq _ flight, finishEvent_handBack_discard]
    rfl
  · rw [exec_descReadComplete_eq r flight, handBack_orphan]
    rfl
  · rw [exec_dataReadComplete_eq r flight, handBack_orphan]
    rfl
  · rw [exec_dataWriteComplete_eq b flight, handBack_orphan, modifiedBy_orphan]
    rfl
  · rw [exec_mapReadComplete_eq r flight, if_neg nofun]
    rfl
  · rw [exec_logWriteComplete_eq b flight, if_neg nofun]
    rfl
  · rw [exec_mapReadComplete_eq r flight, if_pos rfl, deliverMapRead_of_none (s := freePort s) r none]
    rfl
  · rw [exec_logWriteComplete_eq b flight, if_pos rfl, deliverLogWrite_of_none (s := freePort s) b none]
    rfl

end Sys2Proof.Machine
end

section
/-! SUPPORT. The checks of a translation (O41), and a grant by class (O39). -/

namespace Sys2Proof.Machine

-- The proofs are elaborated in turn: side by side their threads outgrow the check's memory limit.
set_option Elab.async false

variable {s : State} {n : ChannelNo}

/-! ### Translation (R78) -/

section Translation

variable {x : MapSet} {logical : LogAddr} {a : Access} {p : PageNo}

theorem toNat_pageOf (logical : LogAddr) : (pageOf logical).toNat = logical.toNat / 4096 := by
  have small := logical.isLt
  rw [pageOf, BitVec.extractLsb'_toNat, Nat.shiftRight_eq_div_pow]
  omega

/-- The frame times 4096 plus the offset (R78). -/
theorem toNat_physical (frame : BitVec 12) (logical : LogAddr) :
    (frame ++ logical.extractLsb' 0 12).toNat = frame.toNat * 4096 + logical.toNat % 4096 := by
  rw [BitVec.toNat_append, BitVec.extractLsb'_toNat, ← Nat.shiftLeft_add_eq_or_of_lt (by omega),
    Nat.shiftLeft_eq]
  simp

theorem translateAccess_beyond (beyond : x.limit.toNat ≤ logical.toNat / 4096) :
    translateAccess x logical a = .fails .pageBeyond := by
  refine dif_neg fun within => ?_
  have below := BitVec.lt_def.mp within.1
  rw [toNat_pageOf] at below
  omega

section Within

variable (page : logical.toNat / 4096 = p.val) (below : p.val < x.limit.toNat)
include page below

/-- Below the limit the entry of the page decides, and of the page alone. -/
theorem pageOf_within : ∃ within : pageOf logical < x.limit ∧ (pageOf logical).toNat < 64,
    (⟨(pageOf logical).toNat, within.2⟩ : PageNo) = p := by
  have number : (pageOf logical).toNat = p.val := (toNat_pageOf logical).trans page
  exact ⟨⟨BitVec.lt_def.mpr (number ▸ below), number ▸ p.isLt⟩, Fin.ext number⟩

theorem translateAccess_invalid (invalid : (x.entry p).valid = false) :
    translateAccess x logical a = .fails .pageInvalid := by
  obtain ⟨within, rfl⟩ := pageOf_within page below
  simp only [translateAccess, dif_pos within, invalid, Bool.false_eq_true, if_false]

theorem translateAccess_denied {k : FaultKind} (valid : (x.entry p).valid = true)
    (denied : deniedBy (x.entry p) a = some k) : translateAccess x logical a = .fails k := by
  obtain ⟨within, rfl⟩ := pageOf_within page below
  simp only [translateAccess, dif_pos within, valid, if_true, denied]

theorem translateAccess_passes (valid : (x.entry p).valid = true)
    (allowed : deniedBy (x.entry p) a = none) :
    translateAccess x logical a = .passes p ((x.entry p).frame ++ logical.extractLsb' 0 12) := by
  obtain ⟨within, rfl⟩ := pageOf_within page below
  simp only [translateAccess, dif_pos within, valid, if_true, allowed]

end Within

end Translation

/-- Settles O41: the first check that fails decides, and the address is the frame and the offset. -/
theorem translationChecks : Obligations.TranslationChecks := by
  intro x logical a _
  refine ⟨translateAccess_beyond, fun p page below =>
    ⟨translateAccess_invalid page below, fun valid access denied => ?_, fun valid access denied => ?_,
      fun valid read write => ?_⟩⟩
  · exact translateAccess_denied page below valid (by simp [deniedBy, access, denied])
  · exact translateAccess_denied page below valid (by simp [deniedBy, access, denied])
  · have allowed : deniedBy (x.entry p) a = none := by
      cases a with
      | read => simp [deniedBy, read rfl]
      | write => simp [deniedBy, write rfl]
    exact ⟨_, translateAccess_passes page below valid allowed, toNat_physical _ _⟩

/-! ### GRANT (R100) -/

theorem exec_grant (can : canGrant s = true) : exec .grant s = .next (finishEvent (arbitrate s)) :=
  congrArg Host.Outcome.next (if_pos can)

theorem exec_grant_of_cannot (cannot : canGrant s = false) : exec .grant s = .next s :=
  congrArg Host.Outcome.next (if_neg (by simp [cannot]))

theorem canGrant_eq_false (h : s.port.inFlight ≠ none ∨ s.control.masterEnable = false) :
    canGrant s = false := by
  rcases h with busy | off
  · simp [canGrant, Option.isNone_iff_eq_none, busy]
  · simp [canGrant, off]

theorem arbitrate_map {l : Loader} (can : canGrant s = true) (load : s.loader = some l)
    (reading : l.phase = .reading) :
    arbitrate s = issue .mapRead (l.source + l.progress.setWidth 24) s := by
  simp only [arbitrate, can, if_true, mapRequest, load, reading]

theorem arbitrate_log {addr : PhysAddr} {w : Word} (can : canGrant s = true) (map : mapRequest s = none)
    (log : logRequest s = some (addr, w)) : arbitrate s = issue (.logWrite w) addr s := by
  simp only [arbitrate, can, if_true, map, log]

theorem arbitrate_channels (can : canGrant s = true) (map : mapRequest s = none)
    (log : logRequest s = none) : arbitrate s = grantChannels 17 s := by
  simp only [arbitrate, can, if_true, map, log]

/-! ### The log writer's word (R134, R137, R181) -/

/-- A slot has four words. -/
theorem logAddress_eq (base : PhysAddr) (slot : BitVec 11) (k : BitVec 2) :
    logAddress base slot k = base + 4 * slot.setWidth 24 + k.setWidth 24 := by
  have four : slot.setWidth 24 <<< 2 = 4 * slot.setWidth 24 := by
    rw [BitVec.shiftLeft_eq_mul_twoPow, BitVec.mul_comm]
    rfl
  rw [logAddress, four]

/-- A word of a record, as the claims write it (R181). -/
theorem logWord_eq (sequence : BitVec 16) (kind : BitVec 8) (channel : ChannelNo) (descAddr : PhysAddr)
    (logical : LogAddr) (stamp words : BitVec 16) (k : BitVec 2) :
    logWord sequence kind channel descAddr logical stamp words k =
      if k = 0 then sequence ++ kind ++ BitVec.ofNat 4 channel.val ++ 0#4
      else if k = 1 then 0#8 ++ descAddr
      else if k = 2 then 0#13 ++ logical
      else stamp ++ words := by
  have cases : k = 0 ∨ k = 1 ∨ k = 2 ∨ k = 3 := by bv_omega
  rcases cases with rfl | rfl | rfl | rfl
  · exact logWord0_eq sequence kind channel
  · exact addressWord_eq descAddr
  · exact logicalWord_eq logical
  · exact twoHalves_eq stamp words

theorem logRequest_of_underWay {u : UnderWay} {w : Word} {k : BitVec 2} (under : s.log.underWay = some u)
    (next : k = u.written + 1) (word : underWayWord s u k = some w) :
    logRequest s = some (s.log.base + 4 * u.slot.setWidth 24 + k.setWidth 24, w) := by
  subst next
  simp only [logRequest, under, nextLogWord, word, Option.map_some, logAddress_eq]

/-! ### The arbiter's choice (R101, R102) -/

theorem mem_eligibleChannels : n ∈ eligibleChannels s ↔ eligibleRequest s n ≠ none := by
  simp [eligibleChannels, mem_channelNumbers, Option.isSome_iff_ne_none]

end Sys2Proof.Machine
end

section
/-! SUPPORT. The arbiter's choice among the channels, and a grant by class (O39). -/

namespace Sys2Proof.Machine

-- The proofs are elaborated in turn: side by side their threads outgrow the check's memory limit.
set_option Elab.async false

variable {s : State} {n : ChannelNo}

/-! ### The arbiter's choice (R101) -/

theorem pairwise_eligibleChannels (s : State) : (eligibleChannels s).Pairwise (· < ·) := by
  have ordered : channelNumbers.Pairwise (· < ·) := by decide
  exact ordered.filter _

/-- Everything before `n` in an ascending list is below it. -/
theorem find?_of_ascending {α : Type} [LT α] {p : α → Bool} {a : α} {l : List α}
    (ascending : l.Pairwise (· < ·)) (mem : a ∈ l) (holds : p a = true)
    (least : ∀ b ∈ l, b < a → p b = false) : l.find? p = some a := by
  obtain ⟨front, back, rfl⟩ := List.append_of_mem mem
  refine List.find?_eq_some_iff_append.mpr ⟨holds, front, back, rfl, fun b before => ?_⟩
  have below := (List.pairwise_append.mp ascending).2.2 b before a List.mem_cons_self
  simp [least b (List.mem_append_left _ before) below]

/-- A chosen channel that is not yielding is the lowest such one, and one that is yielding is alone. -/
theorem Chosen.chosenChannel (chosen : Chosen s n) (eligible : eligibleRequest s n ≠ none) :
    chosenChannel s = some n := by
  obtain ⟨lower, alone⟩ := chosen
  have mem := mem_eligibleChannels.mpr eligible
  unfold Machine.chosenChannel
  cases yields : yielding s n with
  | false =>
    rw [find?_of_ascending (pairwise_eligibleChannels s) mem (by simp [yields]) fun m other below => by
      simp [lower m below (mem_eligibleChannels.mp other)]]
  | true =>
    have only : ∀ m ∈ eligibleChannels s, m = n := fun m other =>
      by_contra fun ne => mem_eligibleChannels.mp other (alone yields m ne)
    rw [List.find?_eq_none.mpr fun m other => by simp [only m other, yields]]
    cases list : eligibleChannels s with
    | nil => rw [list] at mem; cases mem
    | cons m rest => rw [only m (by rw [list]; exact List.mem_cons_self)]; rfl

/-! ### The fairness record (R102) -/

theorem streakAfter_eq (p : Port) (n : ChannelNo) (competing : Bool) :
    streakAfter p n competing = streakRecord p n competing := by
  unfold streakAfter streakRecord
  by_cases owner : p.streakOwner = some n
  · simp only [if_pos owner, Bool.and_eq_true, decide_eq_true_eq]
    split
    · rw [← owner]
    · rw [← owner]
  · simp only [if_neg owner]

theorem competingFor_eq (s : State) (n : ChannelNo) :
    competingFor s n = decide (∃ m, m ≠ n ∧ eligibleRequest s m ≠ none) := by
  refine Bool.eq_iff_iff.mpr ?_
  simp only [competingFor, List.any_eq_true, mem_eligibleChannels, bne_iff_ne, decide_eq_true_eq, and_comm]

/-- A transaction issued for a channel carries the fairness record on. -/
theorem issueForChannel_eq (n : ChannelNo) (purpose : Purpose) (addr : PhysAddr) (s : State) :
    issueForChannel n purpose addr s = { s with port :=
      { streakRecord s.port n (decide (∃ m, m ≠ n ∧ eligibleRequest s m ≠ none)) with
        inFlight := some { purpose := purpose, address := addr, delivery := .deliver } } } := by
  rw [issueForChannel, streakAfter_eq, competingFor_eq]
  rfl

/-! ### The grant of a descriptor read (R32, R99, R104) -/

theorem channelInFlight_of_canGrant (can : canGrant s = true) (n : ChannelNo) :
    s.channelInFlight n = false := by
  have free : s.port.inFlight = none := by
    simpa [canGrant, Option.isNone_iff_eq_none] using And.left (by simpa [canGrant] using can)
  rw [State.channelInFlight, free]

theorem eligibleRequest_of_fetching (free : s.channelInFlight n = false)
    (fetching : (s.channel n).state = .fetching) (left : (s.channel n).fetchProgress < 4) :
    eligibleRequest s n =
      some (.desc ((s.channel n).descAddr + (s.channel n).fetchProgress.setWidth 24)) := by
  simp only [eligibleRequest, channelRequest, free, Bool.false_eq_true, if_false, fetching, left, if_true]

/-- A granted channel request that is issued ends the selection. -/
theorem grantChannels_of_issued {r : ChannelRequest} {t : State} (k : Nat)
    (chosen : chosenChannel s = some n) (request : eligibleRequest s n = some r)
    (issued : grantChannel n r s = .issued t) : grantChannels (k + 1) s = t := by
  simp only [grantChannels, chosen, request, issued]

/-- Settles O39: the classes in their order, each with the transaction that it issues. -/
theorem grantByClass : Obligations.GrantByClass := by
  intro s
  refine ⟨fun cannot => exec_grant_of_cannot (canGrant_eq_false cannot),
    fun can map log none => by rw [exec_grant can, arbitrate_of_no_request _ map log none],
    fun l can load reading => by rw [exec_grant can, arbitrate_map can load reading]; rfl,
    fun u n r can map under target fault k next => ?_, fun u r can map under target k next => ?_,
    fun n can map under chosen fetching left => ?_⟩
  · have word : underWayWord s u k = some (r.word s.log.nextSequence k) := by
      simp only [underWayWord, target, fault]
    rw [exec_grant can, arbitrate_log can map (logRequest_of_underWay under next word), FaultRecord.word,
      logWord_eq]
    rfl
  · have word : underWayWord s u k = some (r.word s.log.nextSequence k) := by
      simp only [underWayWord, target]
    rw [exec_grant can, arbitrate_log can map (logRequest_of_underWay under next word), OverflowRecord.word,
      logWord_eq]
    rfl
  · have request := eligibleRequest_of_fetching (channelInFlight_of_canGrant can n) fetching left
    have first := chosen.chosenChannel (by rw [request]; simp)
    rw [exec_grant can, arbitrate_channels can map (logRequest_of_none under),
      grantChannels_of_issued 16 first request rfl, issueForChannel_eq]

end Sys2Proof.Machine
end

section
/-! SUPPORT. What the end of an event carries out, row by row: the row due first makes no difference to the end of
the event in which it is carried out (for O51). -/

namespace Sys2Proof.Machine

-- The proofs are elaborated in turn: side by side their threads outgrow the check's memory limit.
set_option Elab.async false

variable {s t : State}

/-! ### The rows of the log writer (R137, R144, R148) -/

theorem exec_logStopComplete (due : logStopDue s = true) :
    exec .logStopComplete s = .next (finishEvent (endLogStop s)) :=
  congrArg Host.Outcome.next (if_pos due)

theorem exec_logRecordBegin (due : ringRecordDue s ≠ none) :
    exec .logRecordBegin s = .next (finishEvent (beginRingRecord s)) :=
  congrArg Host.Outcome.next (if_pos (Option.isSome_iff_ne_none.mpr due))

theorem exec_overflowRecordBegin (due : overflowRecordDue s ≠ none) :
    exec .overflowRecordBegin s = .next (finishEvent (beginOverflowRecord s)) :=
  congrArg Host.Outcome.next (if_pos (Option.isSome_iff_ne_none.mpr due))

theorem LogQuiet.logWork_eq (h : LogQuiet s) : logWork s = s := logWork_eq_self s h.stop h.ring h.overflow

/-- A ring record waits for a free slot, and the overflow record for none (R137, R144). -/
theorem ringRecordDue_of_overflow (due : overflowRecordDue s ≠ none) : ringRecordDue s = none := by
  refine if_neg fun ring => due (if_neg fun overflow => ?_)
  simp only [Bool.and_eq_true, decide_eq_true_eq, beq_iff_eq] at ring overflow
  rw [overflow.1.2] at ring
  exact absurd ring.1.2 (BitVec.lt_irrefl _)

/-- The log writer's turn is over once a record is under way. -/
theorem logWork_beginRingRecord (stop : logStopDue s = false) (due : ringRecordDue s ≠ none) :
    logWork (beginRingRecord s) = logWork s := by
  have begun := (beginRingRecord_cases s).resolve_left fun none => due none.2
  have quiet := LogQuiet.of_underWay begun
  rw [quiet.logWork_eq, logWork, endLogStop_of_not_due s stop, beginOverflowRecord_of_none _ quiet.overflow]

theorem logWork_beginOverflowRecord (stop : logStopDue s = false) (due : overflowRecordDue s ≠ none) :
    logWork (beginOverflowRecord s) = logWork s := by
  have begun := (beginOverflowRecord_cases s).resolve_left fun none => due none.2
  rw [(LogQuiet.of_underWay begun).logWork_eq, logWork, endLogStop_of_not_due s stop,
    beginRingRecord_of_none s (ringRecordDue_of_overflow due)]

theorem logWork_endLogStop (s : State) : logWork (endLogStop s) = logWork s := by
  rw [logWork, endLogStop_of_not_due _ (logStopDue_endLogStop s), logWork]

/-! ### The end of an event in which nothing is released -/

theorem finishEvent_of_released (h : Released s) :
    finishEvent s = refreshInterrupts (arbitrate (logWork (arbitrate (logWork s)))) := by
  rw [finishEvent, endDrain_of_none s h.drain, endWriteEntry_of_none s h.rewrite]

/-- The log writer's turn alone is seen where nothing is released. -/
theorem finishEvent_of_logWork (h : Released s) (g : Released t) (same : logWork t = logWork s) :
    finishEvent t = finishEvent s := by
  rw [finishEvent_of_released h, finishEvent_of_released g, same]

theorem Released.endLogStop (h : Released s) : Released (endLogStop s) := by
  unfold Machine.endLogStop
  split
  · exact h.of_command rfl rfl (.inr rfl)
  · exact h

theorem Released.beginRingRecord (h : Released s) : Released (beginRingRecord s) := by
  unfold Machine.beginRingRecord
  split
  · exact h
  · exact h.of_command rfl rfl (.inl rfl)

theorem Released.beginOverflowRecord (h : Released s) : Released (beginOverflowRecord s) := by
  unfold Machine.beginOverflowRecord
  split
  · exact h
  · exact h.of_command rfl rfl (.inl rfl)

/-! ### Each row at the end of an event -/

theorem finishEvent_endDrain (s : State) : finishEvent (endDrain s) = finishEvent s := by
  rw [finishEvent, endDrain_of_none _ (drainedLoad_endDrain s), finishEvent]

theorem finishEvent_endWriteEntry (drained : drainedLoad s = none) :
    finishEvent (endWriteEntry s) = finishEvent s := by
  rw [finishEvent_of_released (released_endWriteEntry drained), finishEvent, endDrain_of_none s drained]

/-- After the grants of a turn the arbiter has one to the log writer to make, or none; after that, none. -/
theorem arbitrate_settles (h : OnlyLogGrant s) (quiet : LogQuiet s) :
    logWork (arbitrate s) = arbitrate s ∧ arbitrate (arbitrate s) = arbitrate s := by
  rcases h.arbitrate with ⟨same, -⟩ | issued
  · rw [same]
    exact ⟨quiet.logWork_eq, same⟩
  · have busy : canGrant (arbitrate s) = false := by
      cases can : canGrant (arbitrate s) with
      | false => rfl
      | true => have := issued.busy; rw [free_of_canGrant can] at this; cases this
    obtain ⟨p, v, e⟩ := issued.frame
    exact ⟨(quiet.of_agree (by rw [e]) (by rw [e])).logWork_eq, arbitrate_of_cannot _ busy⟩

/-- The grant of an event is carried out once (R100). -/
theorem finishEvent_arbitrate (released : Released s) (quiet : LogQuiet s) :
    finishEvent (arbitrate s) = finishEvent s := by
  have granted := arbitrate_granted s
  obtain ⟨still, none⟩ := arbitrate_settles granted.onlyLogGrant.logWork (logWork_quiet (arbitrate s))
  rw [finishEvent_of_released (granted.released released), still, none, finishEvent_of_released released,
    quiet.logWork_eq]

/-- Where nothing is due the end of an event sets the levels of EVENTS and INTOUT alone (R125, R129). -/
theorem finishEvent_of_quiet (released : Released s) (quiet : LogQuiet s)
    (grant : canGrant s = true → mapRequest s = none ∧ logRequest s = none ∧ eligibleChannels s = []) :
    finishEvent s = refreshInterrupts s := by
  have none : arbitrate s = s := by
    cases can : canGrant s with
    | false => exact arbitrate_of_cannot s can
    | true =>
      obtain ⟨map, log, channels⟩ := grant can
      exact arbitrate_of_no_request s map log channels
  rw [finishEvent_of_released released, quiet.logWork_eq, none, quiet.logWork_eq, none]

/-! ### The rows in their order -/

/-- Where the log writer has its turn to take. -/
theorem finishEvent_logWriter (released : Released s) :
    (logStopDue s = true → .next (finishEvent s) = exec .logStopComplete s) ∧
      (logStopDue s = false →
        (ringRecordDue s ≠ none → .next (finishEvent s) = exec .logRecordBegin s) ∧
        (overflowRecordDue s ≠ none → .next (finishEvent s) = exec .overflowRecordBegin s)) := by
  refine ⟨fun due => ?_, fun stop => ⟨fun due => ?_, fun due => ?_⟩⟩
  · rw [exec_logStopComplete due,
      finishEvent_of_logWork released released.endLogStop (logWork_endLogStop s)]
  · rw [exec_logRecordBegin due,
      finishEvent_of_logWork released released.beginRingRecord (logWork_beginRingRecord stop due)]
  · rw [exec_overflowRecordBegin due,
      finishEvent_of_logWork released released.beginOverflowRecord (logWork_beginOverflowRecord stop due)]

end Sys2Proof.Machine
end

section
/-! SUPPORT. What the end of an event can change (O51): one relation for each of its parts, and a closer one for
the part that follows a drain, a WRITE ENTRY and a LOG STOP that end. -/

namespace Sys2Proof.Machine

-- The proofs are elaborated in turn: side by side their threads outgrow the check's memory limit.
set_option Elab.async false

variable {s t u : State} {n : ChannelNo}

/-! ### A channel that a refused grant faults (R11, R79) -/

/-- A channel and its slot stay, or fault by a refused grant. -/
def ChannelEnd (s t : State) (n : ChannelNo) : Prop :=
  (t.channel n = s.channel n ∧ t.slot n = s.slot n) ∨ FaultedAtGrant s t n

theorem FaultedAtGrant.faulted (h : FaultedAtGrant s t n) : (t.channel n).state = .faulted := by
  obtain ⟨-, channel, -⟩ := h
  rcases channel with e | e | e | e <;> rw [e] <;> rfl

/-- The fault of a grant is seen in the channel, its slot and the time. -/
theorem FaultedAtGrant.of_agree (h : FaultedAtGrant t u n) (channel : t.channel n = s.channel n)
    (slot : t.slot n = s.slot n) (timer : t.timer = s.timer) : FaultedAtGrant s u n := by
  have record : ∀ k, faultedChannel t n k = faultedChannel s n k := fun k => by
    rw [faultedChannel, faultedChannel, channel, timer]
  simpa only [FaultedAtGrant, channel, slot, record] using h

/-- A channel that has faulted presents no request, and no grant reaches it. -/
theorem FaultedAtGrant.stays (h : FaultedAtGrant s t n) (next : ChannelEnd t u n) :
    FaultedAtGrant s u n := by
  rcases next with ⟨channel, slot⟩ | ⟨running, -⟩
  · obtain ⟨running, record, away⟩ := h
    exact ⟨running, by rwa [channel], slot.trans away⟩
  · rw [h.faulted] at running
    cases running

theorem FaultedAtGrant.after (h : FaultedAtGrant t u n) (before : ChannelEnd s t n)
    (timer : t.timer = s.timer) : FaultedAtGrant s u n := by
  rcases before with ⟨channel, slot⟩ | faulted
  · exact h.of_agree channel slot timer
  · have running := h.1
    rw [faulted.faulted] at running
    cases running

theorem ChannelEnd.trans (h : ChannelEnd s t n) (g : ChannelEnd t u n) (timer : t.timer = s.timer) :
    ChannelEnd s u n := by
  rcases g with ⟨channel, slot⟩ | faulted
  · rcases h with same | faulted
    · exact .inl ⟨channel.trans same.1, slot.trans same.2⟩
    · exact .inr (faulted.stays (.inl ⟨channel, slot⟩))
  · exact .inr (faulted.after h timer)

/-! ### Every part of the end of an event -/

/-- What no part of the end of an event changes, and what some change between `s` and `t` (R100, R109). -/
structure Ends (s t : State) : Prop where
  queue : t.queue = s.queue
  timer : t.timer = s.timer
  control : t.control = s.control
  model : t.readData = s.readData ∧ t.tickDraws = s.tickDraws ∧ t.pending = s.pending
  channel : ∀ n, ChannelEnd s t n
  noGrant : canGrant s = false → t.port = s.port ∧ ∀ n, t.channel n = s.channel n
  log : t.log.base = s.log.base ∧ t.log.capacity = s.log.capacity ∧
    t.log.writeIndex = s.log.writeIndex ∧ t.log.unconsumed = s.log.unconsumed ∧
    t.log.nextSequence = s.log.nextSequence
  faultOrder : ∃ new, t.log.faultOrder = s.log.faultOrder ++ new ∧ ∀ n ∈ new, FaultedAtGrant s t n
  underWay : s.log.underWay ≠ none → t.log.underWay = s.log.underWay
  sets : ∀ m, (t.mapSet m).state = (s.mapSet m).state ∧ (t.mapSet m).limit = (s.mapSet m).limit
  latches : (s.interrupts.command = true → t.interrupts.command = true) ∧
    (s.interrupts.fault = true → t.interrupts.fault = true) ∧
    t.interrupts.log = s.interrupts.log

theorem Ends.trans (h : Ends s t) (g : Ends t u) : Ends s u where
  queue := g.queue.trans h.queue
  timer := g.timer.trans h.timer
  control := g.control.trans h.control
  model := ⟨g.model.1.trans h.model.1, g.model.2.1.trans h.model.2.1, g.model.2.2.trans h.model.2.2⟩
  channel n := (h.channel n).trans (g.channel n) h.timer
  noGrant cannot := by
    obtain ⟨port, channel⟩ := h.noGrant cannot
    have still : canGrant t = false := by rwa [canGrant, port, h.control]
    obtain ⟨port', channel'⟩ := g.noGrant still
    exact ⟨port'.trans port, fun n => (channel' n).trans (channel n)⟩
  log := by
    obtain ⟨base, capacity, writeIndex, unconsumed, nextSequence⟩ := h.log
    obtain ⟨base', capacity', writeIndex', unconsumed', nextSequence'⟩ := g.log
    exact ⟨base'.trans base, capacity'.trans capacity, writeIndex'.trans writeIndex,
      unconsumed'.trans unconsumed, nextSequence'.trans nextSequence⟩
  faultOrder := by
    obtain ⟨new, order, faulted⟩ := h.faultOrder
    obtain ⟨new', order', faulted'⟩ := g.faultOrder
    refine ⟨new ++ new', by rw [order', order, List.append_assoc], fun n mem => ?_⟩
    rcases List.mem_append.mp mem with first | second
    · exact (faulted n first).stays (g.channel n)
    · exact (faulted' n second).after (h.channel n) h.timer
  underWay some := by
    have same := h.underWay some
    exact (g.underWay (same ▸ some)).trans same
  sets m := ⟨(g.sets m).1.trans (h.sets m).1, (g.sets m).2.trans (h.sets m).2⟩
  latches := ⟨g.latches.1 ∘ h.latches.1, g.latches.2.1 ∘ h.latches.2.1, g.latches.2.2.trans h.latches.2.2⟩

/-- A part that leaves the channels, the slots and the fault order list. -/
theorem Ends.of_tables (beside : Beside s t) (slots : t.slots = s.slots := by rfl)
    (model : t.readData = s.readData ∧ t.tickDraws = s.tickDraws ∧ t.pending = s.pending := by
      exact ⟨rfl, rfl, rfl⟩)
    (log : t.log.base = s.log.base ∧ t.log.capacity = s.log.capacity ∧
      t.log.writeIndex = s.log.writeIndex ∧ t.log.unconsumed = s.log.unconsumed ∧
      t.log.nextSequence = s.log.nextSequence := by exact ⟨rfl, rfl, rfl, rfl, rfl⟩)
    (order : t.log.faultOrder = s.log.faultOrder := by rfl)
    (underWay : s.log.underWay ≠ none → t.log.underWay = s.log.underWay := by exact fun _ => rfl)
    (sets : ∀ m, (t.mapSet m).state = (s.mapSet m).state ∧ (t.mapSet m).limit = (s.mapSet m).limit := by
      exact fun _ => ⟨rfl, rfl⟩)
    (command : s.interrupts.command = true → t.interrupts.command = true := by exact id)
    (fault : t.interrupts.fault = s.interrupts.fault ∧ t.interrupts.log = s.interrupts.log := by
      exact ⟨rfl, rfl⟩) : Ends s t where
  queue := beside.queue
  timer := beside.timer
  control := beside.control
  model := model
  channel n := .inl ⟨State.channel_of_channels s n beside.channels, State.slot_of_slots s n slots⟩
  noGrant _ := ⟨beside.port, fun n => State.channel_of_channels s n beside.channels⟩
  log := log
  faultOrder := ⟨[], by simp [order], nofun⟩
  underWay := underWay
  sets := sets
  latches := ⟨command, fun on => fault.1.trans on, fault.2⟩

theorem Ends.refl (s : State) : Ends s s := .of_tables {}

/-! ### A drain, a WRITE ENTRY and a LOG STOP that end (R85, R91, R148) -/

theorem Ends.enterReading (l : Loader) (s : State) : Ends s (enterReading l s) := by
  refine .of_tables {} (sets := fun m => ?_)
  have set : (Machine.enterReading l s).mapSet m =
      if m = l.set then { s.mapSet l.set with entries := clearedEntries } else s.mapSet m :=
    State.mapSet_putSet s l.set m _
  rw [set]
  split
  · next e => rw [e]; exact ⟨rfl, rfl⟩
  · exact ⟨rfl, rfl⟩

theorem Ends.replaceEntry (m : SetNo) (p : PageNo) (image : Word) (s : State) :
    Ends s (replaceEntry m p image s) :=
  .of_tables {} (sets := fun j => updateEntry_state m j p (fun _ => entryOfImage image) s) (command := fun _ => rfl)

theorem Ends.endDrain (s : State) : Ends s (endDrain s) := by
  unfold Machine.endDrain
  split
  · exact .refl s
  · exact .enterReading _ s

theorem Ends.endWriteEntry (s : State) : Ends s (endWriteEntry s) := by
  unfold Machine.endWriteEntry
  split
  · exact .refl s
  · exact .replaceEntry _ _ _ s

theorem Ends.endLogStop (s : State) : Ends s (endLogStop s) := by
  unfold Machine.endLogStop
  split
  · exact .of_tables {} (command := fun _ => rfl)
  · exact .refl s

/-! ### What follows them: the records that begin, the grants, and the levels -/

/-- An entry stays, or takes its REFERENCED (R81). -/
def Referenced (e e' : PageEntry) : Prop := e' = e ∨ e' = { e with referenced := true }

theorem Referenced.trans {e e' e'' : PageEntry} (h : Referenced e e') (g : Referenced e' e'') :
    Referenced e e'' := by
  rcases h with rfl | rfl
  · exact g
  · exact .inr (by rcases g with rfl | rfl <;> rfl)

/-- What follows the ends of a drain, a WRITE ENTRY and a LOG STOP leaves the load, the command port and the state
of the log, and marks entries alone. -/
structure Proceeds (s t : State) : Prop extends Ends s t where
  command : t.command = s.command
  logState : t.log.state = s.log.state
  loader : t.loader = s.loader
  entries : ∀ m p, Referenced ((s.mapSet m).entry p) ((t.mapSet m).entry p)

theorem Proceeds.trans (h : Proceeds s t) (g : Proceeds t u) : Proceeds s u where
  toEnds := h.toEnds.trans g.toEnds
  command := g.command.trans h.command
  logState := g.logState.trans h.logState
  loader := g.loader.trans h.loader
  entries m p := (h.entries m p).trans (g.entries m p)

theorem Proceeds.refl (s : State) : Proceeds s s := ⟨.refl s, rfl, rfl, rfl, fun _ _ => .inl rfl⟩

theorem Proceeds.beginRingRecord (s : State) : Proceeds s (beginRingRecord s) := by
  unfold Machine.beginRingRecord
  split
  · exact .refl s
  · next n due =>
    refine ⟨.of_tables {} (underWay := fun some => ?_), rfl, rfl, rfl, fun _ _ => .inl rfl⟩
    rw [(LogQuiet.of_underWay (Option.isSome_iff_ne_none.mpr some)).ring] at due
    cases due

theorem Proceeds.beginOverflowRecord (s : State) : Proceeds s (beginOverflowRecord s) := by
  unfold Machine.beginOverflowRecord
  split
  · exact .refl s
  · next n due =>
    refine ⟨.of_tables {} (underWay := fun some => ?_), rfl, rfl, rfl, fun _ _ => .inl rfl⟩
    rw [(LogQuiet.of_underWay (Option.isSome_iff_ne_none.mpr some)).overflow] at due
    cases due

theorem Proceeds.refreshInterrupts (s : State) : Proceeds s (refreshInterrupts s) :=
  ⟨.of_tables {}, rfl, rfl, rfl, fun _ _ => .inl rfl⟩

/-- The port changes only where a grant may be made (R100, R109). -/
theorem Proceeds.withPort (can : canGrant s = true) (p : Port) : Proceeds s { s with port := p } where
  queue := rfl
  timer := rfl
  control := rfl
  model := ⟨rfl, rfl, rfl⟩
  channel _ := .inl ⟨rfl, rfl⟩
  noGrant cannot := by rw [can] at cannot; cases cannot
  log := ⟨rfl, rfl, rfl, rfl, rfl⟩
  faultOrder := ⟨[], by simp, nofun⟩
  underWay _ := rfl
  sets _ := ⟨rfl, rfl⟩
  latches := ⟨id, id, rfl⟩
  command := rfl
  logState := rfl
  loader := rfl
  entries _ _ := .inl rfl

theorem Proceeds.setReferenced (m : SetNo) (p : PageNo) (s : State) : Proceeds s (setReferenced m p s) := by
  refine ⟨.of_tables {} (sets := fun j => updateEntry_state m j p (fun e => { e with referenced := true }) s),
    rfl, rfl, rfl, fun j q => ?_⟩
  rw [Machine.setReferenced, entry_updateEntry]
  split
  · next e => rw [e.1, e.2]; exact .inr rfl
  · exact .inl rfl

/-- A grant that issues a transaction changes the port, and may mark an entry (R81, R104). -/
theorem Proceeds.issues (can : canGrant s = true) (issued : Issues s t) : Proceeds s t := by
  cases issued with
  | beside p => exact .withPort can p
  | through p _ m page => exact (Proceeds.withPort can p).trans (.setReferenced m page _)

/-- A refused grant faults its RUNNING channel (R11, R79). -/
theorem faultedAtGrant_enterFaulted {k : FaultKind} (running : (s.channel n).state = .running)
    (kind : RefusalKind k) : FaultedAtGrant s (enterFaulted n k s) n := by
  refine ⟨running, ?_, ?_⟩
  · rw [channel_enterFaulted, if_pos rfl]
    rcases kind with rfl | rfl | rfl | rfl
    · exact .inl rfl
    · exact .inr (.inl rfl)
    · exact .inr (.inr (.inl rfl))
    · exact .inr (.inr (.inr rfl))
  · rw [enterFaulted_eq]
    exact State.slot_putSlot_self ..

theorem Proceeds.refuses {k : FaultKind} (can : canGrant s = true) (running : (s.channel n).state = .running)
    (kind : RefusalKind k) : Proceeds s (enterFaulted n k s) := by
  have faulted := faultedAtGrant_enterFaulted running kind
  have others : ∀ m, ChannelEnd s (enterFaulted n k s) m := fun m => by
    by_cases e : m = n
    · exact .inr (e ▸ faulted)
    · refine .inl ⟨by rw [channel_enterFaulted, if_neg e], ?_⟩
      rw [enterFaulted_eq]
      exact State.slot_putSlot_of_ne _ n m _ e
  have still : (s.channel n).state ≠ .halting := by simp [running]
  have order : (enterFaulted n k s).log.faultOrder = s.log.faultOrder ++ [n] := by rw [enterFaulted_eq]
  have command : (enterFaulted n k s).command = s.command := by simp [enterFaulted_eq, running]
  exact
    { queue := by rw [enterFaulted_eq]; rfl
      timer := by rw [enterFaulted_eq]; rfl
      control := by rw [enterFaulted_eq]; rfl
      model := by rw [enterFaulted_eq]; exact ⟨rfl, rfl, rfl⟩
      channel := others
      noGrant := fun cannot => by rw [can] at cannot; cases cannot
      log := by rw [enterFaulted_eq]; exact ⟨rfl, rfl, rfl, rfl, rfl⟩
      faultOrder := ⟨[n], order, fun m mem => List.mem_singleton.mp mem ▸ faulted⟩
      underWay := fun _ => by rw [enterFaulted_eq]
      sets := fun m => by rw [enterFaulted_eq]; exact ⟨rfl, rfl⟩
      latches := by rw [enterFaulted_eq]; exact ⟨fun on => by simp [on], fun _ => rfl, rfl⟩
      command := command
      logState := by rw [enterFaulted_eq]
      loader := by rw [enterFaulted_eq]; rfl
      entries := fun m p => .inl (by rw [enterFaulted_eq]; rfl) }

theorem Proceeds.arbitrated (a : Arbitrated s t) : Proceeds s t := by
  induction a with
  | rests s => exact .refl s
  | issues can issued => exact .issues can issued
  | refuses can n k running kind _ ih => exact (Proceeds.refuses can running kind).trans ih

theorem Proceeds.arbitrate (s : State) : Proceeds s (arbitrate s) := .arbitrated (arbitrate_arbitrated s)

/-- The records of a turn of the log writer begin beside the rest (R137, R144). -/
theorem Proceeds.beginRecords (s : State) : Proceeds s (Machine.beginOverflowRecord (Machine.beginRingRecord s)) :=
  (Proceeds.beginRingRecord s).trans (.beginOverflowRecord _)

/-- With no LOG STOP to end, the turn of the log writer begins a record or nothing. -/
theorem Proceeds.logWork (stop : logStopDue s = false) : Proceeds s (logWork s) := by
  rw [Machine.logWork, endLogStop_of_not_due s stop]
  exact .beginRecords s

/-- The end of an event after a drain, a WRITE ENTRY and a LOG STOP have ended. -/
theorem Proceeds.finishEvent (s : State) :
    Proceeds (endLogStop (endWriteEntry (endDrain s))) (Machine.finishEvent s) := by
  have stop := logStopDue_arbitrate (logWork_quiet (endWriteEntry (endDrain s)))
  exact (Proceeds.beginRecords _).trans <| (Proceeds.arbitrate _).trans <| (Proceeds.logWork stop).trans <|
    (Proceeds.arbitrate _).trans (.refreshInterrupts _)

theorem Ends.finishEvent (s : State) : Ends s (finishEvent s) :=
  (Ends.endDrain s).trans <| (Ends.endWriteEntry _).trans <| (Ends.endLogStop _).trans
    (Proceeds.finishEvent s).toEnds

end Sys2Proof.Machine
end

section
/-! SUPPORT. The frame of the end of an event, and what it carries out (O51). -/

namespace Sys2Proof.Machine

-- The proofs are elaborated in turn: side by side their threads outgrow the check's memory limit.
set_option Elab.async false

variable {s : State}

/-! ### What a drain, a WRITE ENTRY and a LOG STOP change at their end (R85, R90, R91, R148) -/

theorem endDrain_command (s : State) : (endDrain s).command = s.command ∧ (endDrain s).log = s.log := by
  unfold endDrain
  split <;> exact ⟨rfl, rfl⟩

theorem releasedWriteEntry_endDrain (s : State) : releasedWriteEntry (endDrain s) = releasedWriteEntry s := by
  unfold releasedWriteEntry State.entryInUse
  rw [(endDrain_command s).1, (endDrain_beside s).port]

theorem endDrain_entry (s : State) (m : SetNo) (p : PageNo) :
    ((endDrain s).mapSet m).entry p = (s.mapSet m).entry p ∨
      (drainedLoad s).map Loader.set = some m := by
  unfold endDrain
  split
  · exact .inl rfl
  · next l due =>
    by_cases set : m = l.set
    · exact .inr (by rw [set, due, Option.map_some])
    · exact .inl (congrArg (·.entry p) ((State.mapSet_putSet s l.set m _).trans (if_neg set)))

theorem endWriteEntry_entry (s : State) (m : SetNo) (p : PageNo) :
    ((endWriteEntry s).mapSet m).entry p = (s.mapSet m).entry p ∨
      (releasedWriteEntry s).map (fun l => (setOfOperand l.a, pageOfOperand l.b)) = some (m, p) := by
  unfold endWriteEntry
  split
  · exact .inl rfl
  · next l due =>
    have entry := entry_updateEntry (setOfOperand l.a) m (pageOfOperand l.b) p (fun _ => entryOfImage l.c) s
    by_cases named : m = setOfOperand l.a ∧ p = pageOfOperand l.b
    · exact .inr (by rw [due, Option.map_some, named.1, named.2])
    · rw [if_neg named] at entry
      exact .inl entry

theorem endWriteEntry_loader (s : State) : (endWriteEntry s).loader = s.loader ∧ (endWriteEntry s).log = s.log := by
  unfold endWriteEntry
  split <;> exact ⟨rfl, rfl⟩

/-- A WRITE ENTRY that ends leaves no command in progress, and so no LOG STOP to end. -/
theorem endWriteEntry_command (s : State) :
    (endWriteEntry s).command = s.command ∧ logStopDue (endWriteEntry s) = logStopDue s ∨
      releasedWriteEntry s ≠ none ∧ logStopDue (endWriteEntry s) = false ∧
        ∃ r, (endWriteEntry s).command = { s.command with inProgress := none, lastResult := r } := by
  unfold endWriteEntry
  split
  · exact .inl ⟨rfl, rfl⟩
  · next l due => exact .inr ⟨by simp [due], rfl, _, rfl⟩

theorem endLogStop_frame (s : State) : (endLogStop s).loader = s.loader ∧ (endLogStop s).sets = s.sets := by
  unfold endLogStop
  split <;> exact ⟨rfl, rfl⟩

theorem endLogStop_command (s : State) :
    (endLogStop s).command = s.command ∧ (endLogStop s).log.state = s.log.state ∨
      logStopDue s = true ∧ (endLogStop s).log.state = .off ∧
        ∃ r, (endLogStop s).command = { s.command with inProgress := none, lastResult := r } := by
  unfold endLogStop
  split
  · next due => exact .inr ⟨due, rfl, _, rfl⟩
  · exact .inl ⟨rfl, rfl⟩

/-! ### The frame -/

/-- The WRITE ENTRY that ends, and after it no LOG STOP, or the LOG STOP (R91, R148). -/
theorem finishEvent_command (s : State) :
    ((finishEvent s).command = s.command ∨
      (releasedWriteEntry s ≠ none ∨ logStopDue s = true) ∧
        ∃ r, (finishEvent s).command = { s.command with inProgress := none, lastResult := r }) ∧
    ((finishEvent s).log.state = s.log.state ∨ logStopDue s = true ∧ (finishEvent s).log.state = .off) := by
  have after := Proceeds.finishEvent s
  obtain ⟨command, log⟩ := endDrain_command s
  have due : logStopDue (endDrain s) = logStopDue s := by
    unfold logStopDue logStopWaits
    rw [command, log]
  have logState : (endWriteEntry (endDrain s)).log.state = s.log.state := by
    rw [(endWriteEntry_loader _).2, log]
  have rewrite := endWriteEntry_command (endDrain s)
  rw [releasedWriteEntry_endDrain, command, due] at rewrite
  rw [after.command, after.logState]
  rcases endLogStop_command (endWriteEntry (endDrain s)) with ⟨same, state⟩ | ⟨stop, state, r, ended⟩
  · refine ⟨?_, .inl (state.trans logState)⟩
    rw [same]
    rcases rewrite with ⟨unchanged, -⟩ | ⟨released, -, ended⟩
    · exact .inl unchanged
    · exact .inr ⟨.inl released, ended⟩
  · rcases rewrite with ⟨unchanged, still⟩ | ⟨-, none, -⟩
    · rw [still] at stop
      rw [unchanged] at ended
      exact ⟨.inr ⟨.inr stop, r, ended⟩, .inr ⟨stop, state⟩⟩
    · rw [none] at stop
      cases stop

theorem finishEvent_loader (s : State) : (finishEvent s).loader = s.loader ∨ drainedLoad s ≠ none := by
  by_cases none : drainedLoad s = none
  · refine .inl ?_
    rw [(Proceeds.finishEvent s).loader, (endLogStop_frame _).1, (endWriteEntry_loader _).1,
      endDrain_of_none s none]
  · exact .inr none

/-- An entry is cleared by the end of a drain, replaced by a WRITE ENTRY that ends, or marked by a grant. -/
theorem finishEvent_entry (s : State) (m : SetNo) (p : PageNo) :
    Referenced ((s.mapSet m).entry p) (((finishEvent s).mapSet m).entry p) ∨
      (drainedLoad s).map Loader.set = some m ∨
      (releasedWriteEntry s).map (fun l => (setOfOperand l.a, pageOfOperand l.b)) = some (m, p) := by
  have marked := (Proceeds.finishEvent s).entries m p
  rw [State.mapSet_of_sets _ m (endLogStop_frame _).2] at marked
  have replaced := endWriteEntry_entry (endDrain s) m p
  rw [releasedWriteEntry_endDrain] at replaced
  rcases replaced with kept | rewritten
  · rcases endDrain_entry s m p with still | cleared
    · rw [kept, still] at marked
      exact .inl marked
    · exact .inr (.inl cleared)
  · exact .inr (.inr rewritten)

theorem finishEvent_levels (s : State) : InterruptInv (finishEvent s) := interruptInv_refresh _

theorem eventEnd_finishEvent (s : State) : EventEnd s (finishEvent s) := by
  have ends := Ends.finishEvent s
  obtain ⟨command, logState⟩ := finishEvent_command s
  exact
    { queue := ends.queue
      timer := ends.timer
      control := ends.control
      model := ends.model
      channel := ends.channel
      noGrant := fun cannot => ends.noGrant (canGrant_eq_false cannot)
      command := command
      log := ends.log
      logState := logState
      faultOrder := ends.faultOrder
      underWay := ends.underWay
      loader := finishEvent_loader s
      sets := ends.sets
      entries := fun m p => or_assoc.mp (finishEvent_entry s m p)
      latches := ends.latches
      levels := finishEvent_levels s }

/-- Settles O51: the frame of each part of the end of an event, and each row that is due carried out once. -/
theorem eventEndFrame : Obligations.EventEndFrame := by
  intro s
  refine ⟨eventEnd_finishEvent s, fun due => ?_, fun drained => ⟨fun due => ?_, fun rewritten => ?_⟩⟩
  · rw [exec_drainEnd due, finishEvent_endDrain]
  · rw [exec_writeEntryReplace due, finishEvent_endWriteEntry drained]
  · have released : Released s := ⟨drained, rewritten⟩
    obtain ⟨stops, begins⟩ := finishEvent_logWriter released
    refine ⟨stops, fun stop => ⟨(begins stop).1, (begins stop).2, fun ring overflow => ?_⟩⟩
    have quiet : LogQuiet s := ⟨stop, ring, overflow⟩
    exact ⟨fun can => by rw [exec_grant can, finishEvent_arbitrate released quiet],
      finishEvent_of_quiet released quiet⟩

end Sys2Proof.Machine
end

section
/-! SUPPORT. A write to CONTROL that does not trigger the soft reset (O5). -/

namespace Sys2Proof.Machine

/-- Both rows of CONTROL are the one write to the register, whichever enables the word changes (R109, R129, R173). -/
theorem exec_controlRows (w : Word) (s : State) :
    exec (.masterEnable w) s = .next (writeControl w s) ∧
      exec (.interruptEnable w) s = .next (writeControl w s) :=
  ⟨rfl, rfl⟩

/-- With bit 31 clear the enables are in force before the event ends: what the end grants and which interrupts it
raises follow the new ones (R100, R129). -/
theorem writeControl_of_noReset {w : Word} (noReset : w.getLsbD 31 = false) (s : State) :
    writeControl w s = finishEvent { s with control := controlOfWord w } := by
  have clear : ¬ softResetBit w = true := ne_true_of_eq_false noReset
  exact if_neg clear

/-- Settles O5: the write without the soft reset, for both rows of CONTROL. -/
theorem controlWrites : Obligations.ControlWrites := by
  rintro s w noReset _ rfl
  obtain ⟨master, interrupt⟩ := exec_controlRows w s
  rw [master, interrupt, writeControl_of_noReset noReset]
  exact ⟨rfl, rfl⟩

end Sys2Proof.Machine
end

section
/-! SUPPORT. The registers of the event queue and of the interrupt causes: INTERRUPT STATUS and AGE CONDITION (O7), a
pop (O8, O9), and EVENT SETTINGS (O10). -/

namespace Sys2Proof.Machine

-- The proofs are elaborated in turn: side by side their threads outgrow the check's memory limit.
set_option Elab.async false

variable {s : State}

/-! ### The interrupt causes (R125, R127, R129) -/

/-- The age condition of a queue: the delay is on, and the head of the queue has stood as long (R125). -/
theorem ageConditionHolds_iff (q : EventQueue) :
    ageConditionHolds q = true ↔ q.delay ≠ 0 ∧ q.records ≠ [] ∧ q.delay ≤ q.headAge := by
  simp [ageConditionHolds, and_assoc]

/-- EVENTS stands at the threshold condition or the age condition (R125). -/
theorem eventsLevel_eq (q : EventQueue) :
    eventsLevel q = (decide (q.threshold.toNat ≤ q.records.length) || ageConditionHolds q) := rfl

theorem eventsLevel_of_ageCondition {q : EventQueue} (aged : ageConditionHolds q = true) :
    eventsLevel q = true := by
  rw [eventsLevel_eq, aged, Bool.or_true]

/-- With its level raised EVENTS rises, and INTOUT follows the causes and their enables (R125, R129). -/
theorem refreshInterrupts_of_raised (raised : eventsLevel s.queue = true) :
    refreshInterrupts s = { s with interrupts := { s.interrupts with
      events := true
      intout := s.control.eventsEnable || (s.interrupts.command && s.control.commandEnable) ||
        (s.interrupts.fault && s.control.faultEnable) ||
        (s.interrupts.log && s.control.logEnable) } } := by
  simp only [refreshInterrupts, raised, intoutLevel, Bool.true_and]

/-- Settles O7: the causes that the word leaves, and the two cases of the age condition. -/
theorem interruptCauses : Obligations.InterruptCauses := by
  intro s w
  refine ⟨rfl, fun on filled aged => ?_, fun unmet => congrArg Host.Outcome.next (if_neg fun aged => ?_)⟩
  · have aged := (ageConditionHolds_iff s.queue).mpr ⟨on, filled, aged⟩
    rw [← refreshInterrupts_of_raised (eventsLevel_of_ageCondition aged)]
    exact congrArg Host.Outcome.next (if_pos aged)
  · obtain ⟨on, filled, reached⟩ := (ageConditionHolds_iff s.queue).mp aged
    rcases unmet with off | empty | young
    · exact on off
    · exact filled empty
    · exact absurd reached (BitVec.not_le.mpr young)

/-! ### A read of EVENT WORD 1 (R118, R119) -/

/-- A pop of an empty queue reads 0 (R119). -/
theorem popEvent_of_empty (empty : s.queue.records = []) : popEvent s = { s with readData := 0 } := by
  simp only [popEvent, empty]

/-- A pop of a queue for which no channel waits removes the head (R118). -/
theorem popEvent_of_head {r : EventRecord} {rest : List EventRecord} (head : s.queue.records = r :: rest)
    (none : s.queue.waitList = []) :
    popEvent s = refreshInterrupts { s with
      readData := r.stamp ++ r.wordsDone
      queue := { s.queue with records := rest, headAge := 0 } } := by
  simp only [popEvent, head, removeHead, oldestWaiter, none, List.tail_cons, r.word1_eq]

theorem oldestWaiter_of_head {n : ChannelNo} {others : List ChannelNo} {p : EventRecord}
    (waits : s.queue.waitList = n :: others) (held : (s.channel n).pendingEvent = some p) :
    oldestWaiter s = some (n, p) := by
  simp only [oldestWaiter, waits, held, Option.map_some]

/-- A pop of a queue for which channels wait moves the pending event of the oldest to the tail (R118). -/
theorem popEvent_of_waiter {r p : EventRecord} {rest : List EventRecord} {n : ChannelNo}
    {others : List ChannelNo} (head : s.queue.records = r :: rest)
    (waits : s.queue.waitList = n :: others) (held : (s.channel n).pendingEvent = some p) :
    popEvent s = finishChannelEvent n
      { s.putChannel n { s.channel n with pendingEvent := none } with
        readData := r.stamp ++ r.wordsDone
        queue := { s.queue with records := rest ++ [p], headAge := 0, waitList := others } } := by
  have oldest := oldestWaiter_of_head (s := removeHead { s with readData := r.word1 }) waits held
  simp only [popEvent, head, oldest]
  simp only [movePending, removeHead, head, waits, List.tail_cons, r.word1_eq]
  rfl

/-- Settles O8: the pop of an empty queue, of a post made before it, and a post made after it. -/
theorem popOfEmptyQueue : Obligations.PopOfEmptyQueue := by
  intro s empty
  refine ⟨congrArg Host.Outcome.next (popEvent_of_empty empty), fun r none => ⟨?_, fun n k words => ?_⟩⟩
  · exact congrArg Host.Outcome.next
      (popEvent_of_head (s := { s with queue := { s.queue with records := [r], headAge := 0 } }) rfl none)
  · rw [makePost_of_room _ n k words (by simp [empty])]
    simp only [empty, List.nil_append]
    rfl

/-- Settles O9: the pop with and without a channel that waits. -/
theorem popRemovesHead : Obligations.PopRemovesHead := fun _ _ _ head =>
  ⟨fun none => congrArg Host.Outcome.next (popEvent_of_head head none),
    fun _ _ _ waits held => congrArg Host.Outcome.next (popEvent_of_waiter head waits held)⟩

/-! ### EVENT SETTINGS (R124) -/

/-- The stored threshold, with its bounds read as numbers (R124). -/
theorem clampThreshold_eq (x : BitVec 8) :
    clampThreshold x = if x.toNat = 0 then 1 else if 24 < x.toNat then 24 else x := by
  have zero : x = 0 ↔ x.toNat = 0 := BitVec.toNat_inj.symm
  have above : 24 < x ↔ 24 < x.toNat := BitVec.lt_def
  simp only [clampThreshold, zero, above]

/-- A write to EVENT SETTINGS stores the clamped threshold and the delay (R124, R178). -/
theorem writeEventSettings_eq (w : Word) (s : State) :
    writeEventSettings w s = refreshInterrupts { s with queue := { s.queue with
      threshold :=
        if (w.extractLsb' 0 8).toNat = 0 then 1
        else if 24 < (w.extractLsb' 0 8).toNat then 24 else w.extractLsb' 0 8
      delay := w.extractLsb' 8 8 } } := by
  have low : w.setWidth 8 = w.extractLsb' 0 8 := BitVec.setWidth_eq_extractLsb' (by decide)
  rw [writeEventSettings, low, clampThreshold_eq]

/-- Settles O10: the write, the read, the level of EVENTS, and the two resets. -/
theorem eventSettingsStored : Obligations.EventSettingsStored := by
  intro s w
  refine ⟨congrArg Host.Outcome.next (writeEventSettings_eq w s), eventSettingsWord_eq s.queue, ?_,
    ⟨powerOn s, rfl, rfl, rfl⟩, ⟨softReset s, rfl, rfl, rfl⟩⟩
  have aged : ageConditionHolds s.queue =
      decide (s.queue.delay ≠ 0 ∧ s.queue.records ≠ [] ∧ s.queue.delay ≤ s.queue.headAge) :=
    Bool.eq_iff_iff.mpr ((ageConditionHolds_iff s.queue).trans decide_eq_true_iff.symm)
  rw [← aged]
  exact eventsLevel_eq s.queue

end Sys2Proof.Machine
end

section
/-! SUPPORT. The event queue and the post wait list through every operation that makes no post: what a request, a
completion and the end of an event leave of them (for O53). -/

namespace Sys2Proof.Machine

-- The proofs are elaborated in turn: side by side their threads outgrow the check's memory limit.
set_option Elab.async false

variable {s t u : State} {n : ChannelNo}

/-- Between `s` and `t` no post is made, and none that waits is moved or discarded (R114, R116). -/
structure NoPost (s t : State) : Prop where
  records : t.queue.records = s.queue.records
  waitList : t.queue.waitList = s.queue.waitList
  pending : ∀ n, (t.channel n).pendingEvent = (s.channel n).pendingEvent

theorem Beside.noPost (h : Beside s t) : NoPost s t :=
  ⟨by rw [h.queue], by rw [h.queue], fun n => by rw [State.channel_of_channels _ n h.channels]⟩

/-- The end of an event leaves the queue, and a fault of its grant leaves the pending event (R11, R79). -/
theorem Ends.noPost (h : Ends s t) : NoPost s t where
  records := by rw [h.queue]
  waitList := by rw [h.queue]
  pending n := by
    rcases h.channel n with ⟨same, -⟩ | ⟨-, faulted, -⟩
    · rw [same]
    · rcases faulted with e | e | e | e <;> rw [e] <;> rfl

namespace NoPost

theorem refl (s : State) : NoPost s s := ⟨rfl, rfl, fun _ => rfl⟩

theorem trans (h : NoPost s t) (g : NoPost t u) : NoPost s u :=
  ⟨g.records.trans h.records, g.waitList.trans h.waitList, fun n => (g.pending n).trans (h.pending n)⟩

theorem of_tables (channels : t.channels = s.channels := by rfl)
    (records : t.queue.records = s.queue.records := by rfl)
    (waitList : t.queue.waitList = s.queue.waitList := by rfl) : NoPost s t :=
  ⟨records, waitList, fun n => by rw [State.channel_of_channels _ n channels]⟩

/-- A record replaced by one that holds the same pending event. -/
theorem putChannel (s : State) (n : ChannelNo) (c : Channel)
    (slot : c.pendingEvent = (s.channel n).pendingEvent := by rfl) : NoPost s (s.putChannel n c) where
  records := rfl
  waitList := rfl
  pending m := by
    rw [State.channel_putChannel]
    split
    · next e => rw [e]; exact slot
    · rfl

/-- An update of the record of one channel, and of others beside the queue. -/
theorem of_putChannel (n : ChannelNo) (c : Channel) (channels : t.channels = (s.putChannel n c).channels)
    (slot : c.pendingEvent = (s.channel n).pendingEvent := by rfl)
    (records : t.queue.records = s.queue.records := by rfl)
    (waitList : t.queue.waitList = s.queue.waitList := by rfl) : NoPost s t :=
  (putChannel s n c slot).trans (.of_tables channels records waitList)

/-! ### Answers, faults and links (R11, R39, R50) -/

theorem answerRequest (s : State) (n : ChannelNo) (a : Answer) : NoPost s (answerRequest n a s) :=
  of_putChannel n { s.channel n with request := none } rfl

theorem turnAway (s : State) (n : ChannelNo) : NoPost s (turnAway n s) := by
  rw [turnAway_eq]
  exact of_putChannel n { s.channel n with request := none } rfl

theorem discardTransaction (s : State) (n : ChannelNo) : NoPost s (discardTransaction n s) := by
  rw [discardTransaction_eq]
  exact .of_tables

/-- A channel that faults keeps its pending event and its place on the wait list (R11). -/
theorem enterFaulted (s : State) (n : ChannelNo) (k : FaultKind) : NoPost s (enterFaulted n k s) := by
  rw [enterFaulted_eq]
  exact of_putChannel n (faultedChannel s n k) rfl

theorem completeChannelCommand (s : State) (n : ChannelNo) (cmd : HostCommand) (r : ResultCode) :
    NoPost s (completeChannelCommand cmd n r s) := by
  rw [completeChannelCommand_eq]
  split
  · exact .of_tables
  · exact refl s

theorem followLink (s : State) (n : ChannelNo) (addr : PhysAddr) : NoPost s (followLink n addr s) := by
  unfold Machine.followLink
  split
  · exact putChannel s n _
  · exact (putChannel s n _).trans (enterFaulted _ n _)

/-! ### Requests (R52 to R68) -/

theorem meetEnd (s : State) (n : ChannelNo) (d : Transfer) : NoPost s (meetEnd n d s) := by
  unfold Machine.meetEnd
  refine (answerRequest s n .ack).trans ?_
  dsimp only
  split
  · split
    · exact putChannel _ n _
    · exact (putChannel _ n _).trans (discardTransaction _ n)
  · exact refl _

theorem meetInRunning (s : State) (n : ChannelNo) (d : Transfer) (r : LinkRequest) :
    NoPost s (meetInRunning n d r s) := by
  unfold Machine.meetInRunning
  dsimp only
  split
  · split
    · exact (answerRequest s n _).trans (putChannel _ n _)
    · exact refl s
  · exact enterFaulted s n _
  · exact enterFaulted s n _
  · split
    · exact refl s
    · exact (answerRequest s n _).trans (putChannel _ n _)
  · exact meetEnd s n d
  · exact enterFaulted s n _

theorem meetWhileWaiting (s : State) (n : ChannelNo) (r : LinkRequest) :
    NoPost s (meetWhileWaiting n r s) := by
  cases r with
  | fail => exact enterFaulted s n _
  | offer | ask | endBlock => exact refl s

theorem meetRequest (s : State) (n : ChannelNo) : NoPost s (meetRequest n s) := by
  unfold Machine.meetRequest
  dsimp only
  cases (s.channel n).request with
  | none => exact refl s
  | some r =>
    cases (s.channel n).state with
    | disabled | idle | aborting | faulted => exact turnAway s n
    | fetching | settling _ | holding | halting | halted => exact meetWhileWaiting s n r
    | running =>
      cases (s.channel n).contents with
      | none => exact meetWhileWaiting s n r
      | some x =>
        cases x with
        | linkOnly a => exact meetWhileWaiting s n r
        | transfer d => exact meetInRunning s n d r

/-! ### Completions (R34, R59, R62, R86, R138) -/

theorem acceptDescriptor (s : State) (n : ChannelNo) (words : List Word) :
    NoPost s (acceptDescriptor n words s) := by
  unfold Machine.acceptDescriptor
  split
  · exact enterFaulted s n _
  · exact putChannel s n _
  · unfold acceptLinkOnly
    dsimp only
    split
    · exact (putChannel s n _).trans (followLink _ n _)
    · exact (putChannel s n _).trans (enterFaulted _ n _)

theorem descWordArrives (s : State) (n : ChannelNo) (w : Word) : NoPost s (descWordArrives n w s) := by
  have kept : NoPost s (keepDescWord n w s) := putChannel s n _
  unfold Machine.descWordArrives
  dsimp only
  split
  · exact kept.trans ((putChannel _ n _).trans (acceptDescriptor _ n _))
  · exact kept

theorem deliverDescRead (s : State) (n : ChannelNo) (r : BusRead) : NoPost s (deliverDescRead n r s) := by
  unfold Machine.deliverDescRead
  split
  · split
    · exact descWordArrives s n _
    · exact enterFaulted s n _
  · split
    · exact putChannel s n _
    · exact enterFaulted s n _
  · exact refl s

theorem deliverDataWrite (s : State) (n : ChannelNo) (r : BusWrite) :
    NoPost s (deliverDataWrite n r s) := by
  unfold Machine.deliverDataWrite
  split
  · split
    · exact putChannel s n _
    · exact enterFaulted s n _
  · exact refl s

theorem deliverDataRead (s : State) (n : ChannelNo) (r : BusRead) : NoPost s (deliverDataRead n r s) := by
  unfold Machine.deliverDataRead
  split
  · split
    · exact putChannel s n _
    · exact enterFaulted s n _
  · exact refl s

/-- A fault record that becomes logged leaves the pending event (R140). -/
theorem deliverLogWrite (s : State) (r : BusWrite) : NoPost s (deliverLogWrite r s) := by
  have marked : ∀ n, NoPost s (markLogged n s) := fun n => by
    unfold markLogged
    split
    · exact putChannel s n _
    · exact refl s
  unfold Machine.deliverLogWrite
  split
  · unfold logWordDone
    split
    · split
      · exact (marked _).trans .of_tables
      · unfold finishOverflowRecord
        dsimp only
        split <;> exact .of_tables
    · exact .of_tables
  · exact .of_tables
  · exact refl s

/-! ### The interval timer (R154, R159) -/

theorem faultStalled (due : List ChannelNo) : ∀ s : State, NoPost s (faultStalled due s) := by
  induction due with
  | nil => exact refl
  | cons n rest ih => exact fun s => (enterFaulted s n .stallTimeout).trans (ih _)

/-- A tick looks at no pending event, and of the queue it raises the head age alone (R123, R158). -/
theorem ticked (s : State) : NoPost s (ticked s) := by
  obtain ⟨records, waitList⟩ : (tickHeadAge s.queue).records = s.queue.records ∧
      (tickHeadAge s.queue).waitList = s.queue.waitList := by
    unfold tickHeadAge
    split <;> exact ⟨rfl, rfl⟩
  refine ⟨records, waitList, fun n => ?_⟩
  obtain ⟨x, e⟩ := tickChannel_eq (s.channel n)
  rw [channel_ticked, e]

theorem tickEvent (s : State) : NoPost s (tickEvent s) := by
  have drawn : ∀ a : State, NoPost a { a with tickDraws := a.tickDraws + 1 } := fun _ => .of_tables
  rw [tickEvent_eq]
  exact (ticked s).trans <| (drawn _).trans <| (faultStalled _ _).trans (Ends.finishEvent _).noPost

theorem microsecond (s : State) : NoPost s (microsecond s) := by
  have restarted : NoPost s (restartPrescaler s) := .of_tables
  unfold Machine.microsecond
  split
  · exact .of_tables
  · exact restarted.trans (tickEvent _)

theorem writeTimerPeriod (s : State) (w : Word) : NoPost s (writeTimerPeriod w s) := by
  unfold Machine.writeTimerPeriod
  split
  · exact refl s
  · exact .of_tables

end NoPost

end Sys2Proof.Machine
end

section
/-! SUPPORT. A post made, moved or discarded keeps the bound of the event queue and its agreement with the post wait
list, and so does what an event comes to at a channel (for O53). -/

namespace Sys2Proof.Machine

-- The proofs are elaborated in turn: side by side their threads outgrow the check's memory limit.
set_option Elab.async false

variable {s t : State} {n : ChannelNo}

/-! ### Posts made, moved and discarded (R9, R24, R115, R118) -/

/-- The invariant looks at the records, the wait list and the pending events. -/
theorem QueueInv.noPost (h : QueueInv s) (same : NoPost s t) : QueueInv t where
  depth := same.records ▸ h.depth
  once := same.waitList ▸ h.once
  waiting n := by rw [same.waitList, same.pending]; exact h.waiting n
  full waits := by rw [same.records]; exact h.full (same.waitList ▸ waits)

/-- A channel that joins the wait list of a full queue with its slot filled (R9). -/
theorem QueueInv.enlist (h : QueueInv s) (n : ChannelNo) (c : Channel)
    (empty : (s.channel n).pendingEvent = none) (held : c.pendingEvent.isSome)
    (channels : t.channels = (s.putChannel n c).channels)
    (waitList : t.queue.waitList = s.queue.waitList ++ [n])
    (records : t.queue.records = s.queue.records) (full : s.queue.records.length = 24) : QueueInv t where
  depth := records ▸ h.depth
  once := by
    have fresh : n ∉ s.queue.waitList := fun listed => by
      have filled := (h.waiting n).mp listed
      rw [empty] at filled
      cases filled
    rw [waitList]
    exact List.nodup_append.mpr ⟨h.once, List.nodup_singleton n, fun a listed b last e =>
      fresh (List.mem_singleton.mp last ▸ e ▸ listed)⟩
  waiting m := by
    rw [waitList, List.mem_append, List.mem_singleton, State.channel_of_channels _ m channels,
      State.channel_putChannel]
    split
    · next e => simp [e, held]
    · next other => simp [other, h.waiting m]
  full _ := records ▸ full

/-- A post joins a queue with room, on which no channel waits, or waits in an empty slot (R9, R115). -/
theorem QueueInv.makePost (h : QueueInv s) (empty : (s.channel n).pendingEvent = none) (k : EventKind)
    (words : BitVec 16) : QueueInv (makePost n k words s) := by
  rcases Nat.lt_or_ge s.queue.records.length 24 with room | full
  · rw [makePost_of_room s n k words room]
    exact
      { depth := by rw [List.length_append]; exact room
        once := h.once
        waiting := h.waiting
        full := fun waits => absurd (h.full waits) (Nat.ne_of_lt room) }
  · rw [makePost_of_full s n k words full]
    exact h.enlist n { s.channel n with pendingEvent := some (postedRecord s n k words) } empty rfl rfl rfl rfl
      (Nat.le_antisymm h.depth full)

/-- A post that is made, with the channel on to another state. -/
theorem QueueInv.postAndPut (h : QueueInv s) (empty : (s.channel n).pendingEvent = none) (k : EventKind)
    (words : BitVec 16) (c : Channel)
    (slot : c.pendingEvent = ((Machine.makePost n k words s).channel n).pendingEvent := by rfl) :
    QueueInv ((Machine.makePost n k words s).putChannel n c) :=
  (h.makePost empty k words).noPost (.putChannel _ n c slot)

/-- A channel that leaves the wait list with its slot emptied, while the queue stays as long as it was or no
channel is left waiting (R24, R118). -/
theorem QueueInv.unlist (h : QueueInv s) (n : ChannelNo) (c : Channel) (empty : c.pendingEvent = none)
    (channels : t.channels = (s.putChannel n c).channels)
    (waitList : t.queue.waitList = s.queue.waitList.erase n)
    (records : t.queue.records.length = s.queue.records.length) : QueueInv t where
  depth := records ▸ h.depth
  once := waitList ▸ h.once.erase n
  waiting m := by
    rw [waitList, h.once.mem_erase_iff, State.channel_of_channels _ m channels, State.channel_putChannel]
    split
    · next e => simp [e, empty]
    · next other => simp [other, h.waiting m]
  full waits := by
    rw [records]
    refine h.full fun none => waits ?_
    rw [waitList, none]
    rfl

/-- An aborted channel discards its pending event and leaves the wait list (R24). -/
theorem QueueInv.enterAborting (h : QueueInv s) (n : ChannelNo) : QueueInv (enterAborting n s) := by
  rw [enterAborting_eq]
  exact h.unlist n { (s.channel n).toAborting with request := none } rfl rfl rfl rfl

/-! ### The settling sequence and the end of an event at a channel (R10, R19, R25, R41 to R45) -/

theorem QueueInv.settleSelect (h : QueueInv s) (n : ChannelNo) (d : Transfer) :
    QueueInv (settleSelect n d s) := by
  unfold Machine.settleSelect
  dsimp only
  split
  · exact h.noPost (.followLink s n _)
  · split
    · exact h.noPost (.followLink s n _)
    · split
      · exact h.noPost (.putChannel s n _)
      · next empty => exact h.postAndPut (by simpa using empty) _ _ _

theorem QueueInv.settleHold (h : QueueInv s) (n : ChannelNo) (d : Transfer) :
    QueueInv (settleHold n d s) := by
  unfold Machine.settleHold
  dsimp only
  split
  · split
    · exact h.noPost (.putChannel s n _)
    · next empty => exact h.postAndPut (by simpa using empty) _ _ _
  · exact h.settleSelect n d

theorem QueueInv.settleFrom (h : QueueInv s) (n : ChannelNo) (step : SettlingStep) (d : Transfer) :
    QueueInv (settleFrom n step d s) := by
  cases step with
  | hold => exact h.settleHold n d
  | select => exact h.settleSelect n d
  | report =>
    show QueueInv (settleReport n d s)
    unfold settleReport
    dsimp only
    split
    · exact h.settleHold n d
    · split
      · exact h.noPost (.putChannel s n _)
      · next empty => exact (h.makePost (by simpa using empty) _ _).settleHold n d

section Channel

variable (h : QueueInv s) (n : ChannelNo)
include h

theorem QueueInv.completeBlock : QueueInv (completeBlock n s) := by
  unfold Machine.completeBlock
  split
  · exact h
  · exact h.settleFrom n .report _

theorem QueueInv.resumeSettling : QueueInv (resumeSettling n s) := by
  unfold Machine.resumeSettling
  split
  · exact h
  · exact h.settleFrom n _ _

theorem QueueInv.leaveHalting : QueueInv (leaveHalting n s) := by
  unfold Machine.leaveHalting
  split
  · next due =>
    simp only [leaveHaltingDue, Bool.and_eq_true, Option.isNone_iff_eq_none] at due
    exact (h.postAndPut due.2 _ _ _).noPost (.completeChannelCommand _ n _ _)
  · exact h

theorem QueueInv.leaveAborting : QueueInv (leaveAborting n s) := by
  unfold Machine.leaveAborting
  split
  · next due =>
    simp only [leaveAbortingDue, Bool.and_eq_true, Option.isNone_iff_eq_none] at due
    exact (h.postAndPut due.2 _ _ _).noPost (.completeChannelCommand _ n _ _)
  · exact h

theorem QueueInv.meetRequest : QueueInv (meetRequest n s) := h.noPost (.meetRequest s n)

theorem QueueInv.carryOn : QueueInv (carryOn n s) :=
  (((((((h.resumeSettling n).leaveHalting n).leaveAborting n).completeBlock n).meetRequest
    n).completeBlock n).meetRequest n)

theorem QueueInv.finishEvent : QueueInv (finishEvent s) := h.noPost (Ends.finishEvent s).noPost

theorem QueueInv.finishChannelEvent : QueueInv (finishChannelEvent n s) := (h.carryOn n).finishEvent

/-! ### Arrival (R50, R51) -/

theorem QueueInv.present (r : LinkRequest) : QueueInv (present n r s) :=
  (h.noPost (.putChannel s n _)).carryOn n

theorem QueueInv.putSlot (l : Slot) : QueueInv (s.putSlot n l) := h.noPost .of_tables

theorem QueueInv.arrive (r : LinkRequest) : QueueInv (arrive n r s) := by
  unfold Machine.arrive
  split
  · exact h.putSlot n _
  · split
    · exact h.putSlot n _
    · exact (h.putSlot n _).present n r

theorem QueueInv.arriveFail : QueueInv (arriveFail n s) := by
  unfold Machine.arriveFail
  split
  · exact h.putSlot n _
  · exact (h.putSlot n _).present n .fail

theorem QueueInv.lowerRequestValid : QueueInv (lowerRequestValid n s) := by
  unfold Machine.lowerRequestValid
  dsimp only
  split
  · split
    · exact h.putSlot n _
    · exact (h.putSlot n _).present n _
  · exact h.putSlot n _

end Channel

/-! ### Completions (R106) -/

section Completions

variable (h : QueueInv s)
include h

theorem QueueInv.handBack (n : ChannelNo) (d : Delivery) {deliver : State → State}
    (delivered : NoPost s (deliver s)) : QueueInv (handBack n d deliver s) := by
  cases d with
  | deliver => exact (h.noPost delivered).carryOn n
  | discard => exact h.carryOn n
  | orphan => exact h

theorem QueueInv.freePort : QueueInv (freePort s) := h.noPost .of_tables

theorem QueueInv.completeDescRead (r : BusRead) : QueueInv (completeDescRead r s) := by
  unfold Machine.completeDescRead
  split
  · exact (h.freePort.handBack _ _ (.deliverDescRead _ _ r)).finishEvent
  · exact h

theorem QueueInv.completeDataWrite (r : BusWrite) : QueueInv (completeDataWrite r s) := by
  unfold Machine.completeDataWrite
  split
  · next n m p w a d flight =>
    have marked : QueueInv
        (if modifiedBy r d then setModified m p (Machine.freePort s) else Machine.freePort s) := by
      split
      · exact h.freePort.noPost .of_tables
      · exact h.freePort
    exact (marked.handBack _ _ (.deliverDataWrite _ _ r)).finishEvent
  · exact h

theorem QueueInv.completeDataRead (r : BusRead) : QueueInv (completeDataRead r s) := by
  unfold Machine.completeDataRead
  split
  · exact (h.freePort.handBack _ _ (.deliverDataRead _ _ r)).finishEvent
  · exact h

theorem QueueInv.completeMapRead (r : BusRead) : QueueInv (completeMapRead r s) := by
  unfold Machine.completeMapRead
  split
  · split
    · exact (h.freePort.noPost (deliverMapRead_beside _ r).noPost).finishEvent
    · exact h.freePort.finishEvent
  · exact h

theorem QueueInv.completeLogWrite (r : BusWrite) : QueueInv (completeLogWrite r s) := by
  unfold Machine.completeLogWrite
  split
  · split
    · exact (h.freePort.noPost (.deliverLogWrite _ r)).finishEvent
    · exact h.freePort.finishEvent
  · exact h

end Completions

end Sys2Proof.Machine
end

section
/-! SUPPORT. Every step keeps the event queue and the post wait list in agreement (O53): pops, resets, the host
commands and the whole of each command. -/

namespace Sys2Proof.Machine

-- The proofs are elaborated in turn: side by side their threads outgrow the check's memory limit.
set_option Elab.async false

variable {s t : State}

/-! ### A pop (R118) -/

/-- A pop takes a record from a queue for which no channel waits, or moves the post of the first that does, which
keeps the queue full. -/
theorem QueueInv.popEvent (h : QueueInv s) : QueueInv (popEvent s) := by
  cases head : s.queue.records with
  | nil =>
    rw [popEvent_of_empty head]
    exact h.noPost .of_tables
  | cons r rest =>
    cases waits : s.queue.waitList with
    | nil =>
      have shorter : QueueInv { s with
          readData := r.stamp ++ r.wordsDone
          queue := { s.queue with records := rest, headAge := 0 } } :=
        { depth := Nat.le_of_succ_le (by simpa [head] using h.depth)
          once := h.once
          waiting := h.waiting
          full := fun some => absurd waits some }
      rw [popEvent_of_head head waits]
      exact shorter.noPost (refreshInterrupts_beside _).noPost
    | cons n others =>
      have listed : n ∈ s.queue.waitList := by simp [waits]
      obtain ⟨p, held⟩ := Option.isSome_iff_exists.mp ((h.waiting n).mp listed)
      rw [popEvent_of_waiter head waits held]
      refine QueueInv.finishChannelEvent ?_ n
      exact h.unlist n { s.channel n with pendingEvent := none } rfl rfl (by simp [waits]) (by simp [head])

/-! ### Host commands (R14 to R28, R84, R90, R147 to R149) -/

section Taken

variable (h : QueueInv s) (l : Latched)
include h

/-- A channel that UNBIND is taken on holds no pending event (R16). -/
theorem QueueInv.takeUnbind (check : (s.channel (channelOfOperand l.a)).pendingEvent = none) :
    QueueInv (takeUnbind l s) :=
  h.noPost (.of_putChannel (channelOfOperand l.a) _ rfl check.symm)

theorem QueueInv.takeStart : QueueInv (takeStart l s) := by
  have begun : NoPost s ((completeCommand .ok s).putChannel (channelOfOperand l.a)
      { s.channel (channelOfOperand l.a) with linkOnlyRun := 0, short := false }) :=
    .of_putChannel _ _ rfl
  exact (h.noPost (begun.trans (.putChannel _ _ _))).finishChannelEvent _

theorem QueueInv.takeHalt : QueueInv (takeHalt l s) :=
  (h.noPost (.putChannel s _ _)).finishChannelEvent _

theorem QueueInv.continueFrom (n : ChannelNo) : QueueInv (continueFrom n s) := by
  have restart : QueueInv (restartFetch n s) := by
    rw [restartFetch_eq]
    exact h.noPost ((NoPost.discardTransaction s n).trans (.putChannel _ n _ (by simp)))
  unfold Machine.continueFrom
  dsimp only
  split
  · exact h.noPost (.putChannel s n _)
  · exact restart
  · exact h.settleSelect n _
  · exact restart
  · exact h

theorem QueueInv.completeCommand (r : ResultCode) : QueueInv (completeCommand r s) := h.noPost .of_tables

theorem QueueInv.takeContinue : QueueInv (takeContinue l s) :=
  ((h.completeCommand .ok).continueFrom _).finishChannelEvent _

theorem QueueInv.takeAbort : QueueInv (takeAbort l s) := (h.enterAborting _).finishChannelEvent _

theorem QueueInv.takeLoadMap : QueueInv (takeLoadMap l s) := by
  unfold Machine.takeLoadMap
  dsimp only
  split <;> exact (h.noPost .of_tables).finishEvent

theorem QueueInv.takeWriteEntry : QueueInv (takeWriteEntry l s) := by
  unfold Machine.takeWriteEntry
  dsimp only
  split
  · exact h
  · exact h.noPost .of_tables

theorem QueueInv.takeLogStop : QueueInv (takeLogStop l s) := by
  unfold Machine.takeLogStop
  split
  · exact h
  · exact h.noPost .of_tables

/-- The owners' effects; only UNBIND leans on its state check (R16, R165). -/
theorem QueueInv.takeCommand (cmd : HostCommand) (check : stateCheck l s = none) (named : l.command = cmd) :
    QueueInv (takeCommand cmd l s) := by
  cases cmd with
  | bind => exact h.noPost (.of_putChannel (channelOfOperand l.a) _ rfl)
  | unbind =>
    have state := check
    simp only [stateCheck, named, badStateUnless_none, Bool.and_eq_true, Option.isNone_iff_eq_none] at state
    exact h.takeUnbind l state.2
  | start => exact h.takeStart l
  | halt => exact h.takeHalt l
  | continueChannel => exact h.takeContinue l
  | abort => exact h.takeAbort l
  | clearFault => exact h.noPost (.of_putChannel (channelOfOperand l.a) _ rfl)
  | readChannel => exact h.noPost .of_tables
  | loadMap => exact h.takeLoadMap l
  | writeEntry => exact h.takeWriteEntry l
  | readEntry => exact h.noPost .of_tables
  | probe => exact h.noPost .of_tables
  | setLog => exact (h.noPost .of_tables).finishEvent
  | logStop => exact h.takeLogStop l
  | logConsumed => exact (h.noPost .of_tables).finishEvent

end Taken

/-- A command presented is discarded, refused or taken (R163 to R165). -/
theorem QueueInv.presentCommand (h : QueueInv s) (cmd : HostCommand) :
    QueueInv (presentCommand cmd (Machine.takeCommand cmd) s) := by
  by_cases idle : s.command.inProgress = none
  · cases check : commandCheck (latch cmd s) s with
    | some r =>
      rw [presentCommand_refused s cmd _ idle r check]
      exact h.noPost .of_tables
    | none =>
      rw [presentCommand_taken s cmd _ idle check]
      have during : QueueInv (duringCommand cmd s) := h.noPost .of_tables
      refine during.takeCommand (latch cmd s) cmd ?_ rfl
      unfold commandCheck at check
      split at check
      · exact check
      · cases check
  · rw [presentCommand_busy s cmd _ idle]
    exact h.noPost .of_tables

/-! ### Resets and the register window (R2, R171) -/

/-- A part that has been reset has an empty queue, and no channel that waits (R2, R114). -/
theorem QueueInv.of_reset (channels : ∀ n, t.channel n = Channel.reset)
    (queue : t.queue = EventQueue.reset) : QueueInv t :=
  queueInv_reset.noPost ⟨by rw [queue]; rfl, by rw [queue]; rfl, fun n => by rw [channels, channel_reset]⟩

theorem QueueInv.powerOn (s : State) : QueueInv (powerOn s) := .of_reset (channel_of_replicate rfl) rfl

theorem QueueInv.softReset (s : State) : QueueInv (softReset s) := .of_reset (channel_of_replicate rfl) rfl

section Window

variable (h : QueueInv s)
include h

theorem QueueInv.writeControl (w : Word) : QueueInv (writeControl w s) := by
  unfold Machine.writeControl
  split
  · exact .softReset s
  · exact (h.noPost .of_tables).finishEvent

theorem QueueInv.writeCommand (w : Word) : QueueInv (writeCommand w s) := by
  unfold Machine.writeCommand
  split
  · exact h.presentCommand _
  · unfold presentUnknown
    split <;> exact h.noPost .of_tables

theorem QueueInv.windowWrite (offset : BitVec 5) (w : Word) : QueueInv (windowWrite offset w s) := by
  unfold Machine.windowWrite
  split
  · exact h.writeControl w
  · exact h.noPost .of_tables
  · exact h.writeCommand w
  · exact h.noPost .of_tables
  · exact h.noPost .of_tables
  · exact h.noPost .of_tables
  · exact h.noPost .of_tables
  · exact h.noPost (.writeTimerPeriod s w)
  · exact h

end Window

/-! ### Every command -/

/-- A row that acts where its condition holds, and changes nothing elsewhere. -/
theorem QueueInv.ite (h : QueueInv s) {p : Prop} [Decidable p] (acts : QueueInv t) :
    QueueInv (if p then t else s) := by
  split
  · exact acts
  · exact h

/-- Every command keeps the event queue and the post wait list in agreement (R114, R116). -/
theorem QueueInv.exec (h : QueueInv s) (c : Instr) (run : exec c s = .next t) : QueueInv t := by
  cases c <;> injection run with run <;> subst run
  case powerOnReset => exact .powerOn s
  case softReset w => exact .softReset s
  case offer n w => exact (h.arrive n _).finishEvent
  case ask n => exact (h.arrive n _).finishEvent
  case endBlock n => exact (h.arrive n _).finishEvent
  case fail n => exact (h.arriveFail n).finishEvent
  case requestValidFall n => exact (h.lowerRequestValid n).finishEvent
  case descReadComplete r => exact h.completeDescRead r
  case dataWriteComplete r => exact h.completeDataWrite r
  case dataReadComplete r => exact h.completeDataRead r
  case mapReadComplete r => exact h.completeMapRead r
  case logWriteComplete r => exact h.completeLogWrite r
  case grant => exact h.ite (h.noPost (Proceeds.arbitrate s).noPost).finishEvent
  case tick => exact h.noPost (NoPost.trans .of_tables (.tickEvent (restartPrescaler s)))
  case stallTimeout n => exact h.ite (h.noPost (.enterFaulted s n _)).finishEvent
  case ageCondition => exact h.ite (h.noPost .of_tables)
  case bind => exact h.presentCommand .bind
  case unbind => exact h.presentCommand .unbind
  case start => exact h.presentCommand .start
  case halt => exact h.presentCommand .halt
  case continueChannel => exact h.presentCommand .continueChannel
  case abort => exact h.presentCommand .abort
  case clearFault => exact h.presentCommand .clearFault
  case readChannel => exact h.presentCommand .readChannel
  case loadMap => exact h.presentCommand .loadMap
  case writeEntry => exact h.presentCommand .writeEntry
  case readEntry => exact h.presentCommand .readEntry
  case probe => exact h.presentCommand .probe
  case setLog => exact h.presentCommand .setLog
  case logStop => exact h.presentCommand .logStop
  case logConsumed => exact h.presentCommand .logConsumed
  case unknownCommand w => exact h.writeCommand w
  case masterEnable w => exact h.writeControl w
  case interruptEnable w => exact h.writeControl w
  case interruptStatusClear w => exact h.noPost .of_tables
  case pop => exact h.popEvent
  case eventSettingsWrite w => exact h.noPost .of_tables
  case timerPeriodWrite w => exact h.noPost (.writeTimerPeriod s w)
  case registerWrite offset w => exact h.windowWrite offset w
  case waitingRequestMet n => exact h.ite ((h.meetRequest n).finishChannelEvent n)
  case waitingPost n => exact h.ite (((h.resumeSettling n).leaveHalting n).finishChannelEvent n)
  case blockComplete n => exact h.ite ((h.completeBlock n).finishChannelEvent n)
  case leaveHalting n => exact h.ite ((h.leaveHalting n).finishChannelEvent n)
  case leaveAborting n => exact h.ite ((h.leaveAborting n).finishChannelEvent n)
  case drainEnd => exact h.ite (h.noPost (endDrain_beside s).noPost).finishEvent
  case writeEntryReplace => exact h.ite (h.noPost (endWriteEntry_beside s).noPost).finishEvent
  case logRecordBegin => exact h.ite (h.noPost (beginRingRecord_beside s).noPost).finishEvent
  case overflowRecordBegin => exact h.ite (h.noPost (beginOverflowRecord_beside s).noPost).finishEvent
  case logStopComplete => exact h.ite (h.noPost (endLogStop_beside s).noPost).finishEvent

/-- Settles O53: every command and every microsecond keeps the invariant, which the queue of commands does not
touch. -/
theorem queueInvariantKept : Obligations.QueueInvariantKept :=
  step_keeps (fun _ _ h => h.noPost .of_tables) (fun c _ _ h run => h.exec c run)
    fun s h => h.noPost (.microsecond s)

end Sys2Proof.Machine
end

section
/-! SUPPORT. The microsecond, the tick and the stall timeouts of a tick (O23). -/

namespace Sys2Proof.Machine

-- The proofs are elaborated in turn: side by side their threads outgrow the check's memory limit.
set_option Elab.async false

variable {s : State} {n : ChannelNo}

/-! ### The microsecond (R153) -/

theorem step_idle (idle : s.pending = []) : step s = .next (microsecond s) := by
  simp only [step, idle]

/-- Below the period a microsecond moves the prescaler alone (R153). -/
theorem microsecond_of_early (early : s.timer.prescaler.toNat + 1 < s.timer.period.toNat) :
    microsecond s = { s with timer := { s.timer with prescaler := s.timer.prescaler + 1 } } :=
  if_pos early

/-- Where the prescaler would reach the period a microsecond is a tick (R153, R154). -/
theorem microsecond_of_due (due : s.timer.period.toNat ≤ s.timer.prescaler.toNat + 1) :
    microsecond s = tickEvent (restartPrescaler s) :=
  if_neg (Nat.not_lt.mpr due)

/-! ### Channels that stall (R157, R159) -/

/-- On an INBOUND block a channel is ready where it could take a word (R57, R157). -/
theorem readyOn_inbound {c : Channel} {d : Transfer} (inbound : d.direction = .inbound) :
    readyOn c d = true ↔ c.staging.length < 4 ∧ c.exchanged < d.count ∧ c.short = false := by
  simp only [readyOn, inbound, canTake, Config.stagingDepth, Bool.and_eq_true, decide_eq_true_eq,
    Bool.not_eq_true']
  exact and_comm

/-- On an OUTBOUND block a channel is ready where it could give a word (R63, R157). -/
theorem readyOn_outbound {c : Channel} {d : Transfer} (outbound : d.direction = .outbound) :
    readyOn c d = true ↔ c.staging ≠ [] := by
  simp [readyOn, outbound]

/-- The model's test of readiness is the claims' own (R157). -/
theorem readyForPeripheral_iff (c : Channel) : readyForPeripheral c = true ↔ Ready c := by
  unfold readyForPeripheral Ready
  split
  · next d running held =>
    cases direction : d.direction with
    | inbound => simp only [running, held, direction, readyOn_inbound direction, true_and]
    | outbound => simp only [running, held, direction, readyOn_outbound direction, true_and]
  · next other =>
    refine iff_of_false Bool.false_ne_true ?_
    rintro ⟨running, ready⟩
    split at ready
    · next d held => exact other d running held
    · exact ready

/-- A channel is stalled where supervision is on, it is ready, and its counter stands at the limit (R159). -/
theorem stalled_iff (c : Channel) : stalled c = true ↔
    c.stallLimit ≠ 0 ∧ readyForPeripheral c = true ∧ c.stallCounter = c.stallLimit := by
  simp [stalled, and_assoc]

theorem exec_stallTimeout (n : ChannelNo) (s : State) : exec (.stallTimeout n) s =
    .next (if stalled (s.channel n) then finishEvent (enterFaulted n .stallTimeout s) else s) := rfl

/-! ### The tick (R123, R154, R158) -/

/-- The head age of a non-empty queue rises below 255 (R123). -/
theorem tickHeadAge_eq (q : EventQueue) : tickHeadAge q = { q with headAge :=
    if q.records ≠ [] ∧ q.headAge ≠ 255 then q.headAge + 1 else q.headAge } := by
  have rises : (q.records ≠ [] ∧ q.headAge ≠ 255) ↔ ¬ (q.records.isEmpty || q.headAge == 255) = true := by
    simp
  unfold tickHeadAge
  split
  · next stays => rw [if_neg fun both => rises.mp both stays]
  · next other => rw [if_pos (rises.mpr other)]

/-- The part when the timer, the channels and the queue have taken a tick and the order of its timeouts has been
drawn (R154, R159, log entry 7). -/
def raisedByTick (s : State) : State :=
  { ticked (restartPrescaler s) with tickDraws := s.tickDraws + 1 }

/-- The order in which the channels at their limits take the tick (R159). -/
def timeoutOrder (s : State) : List ChannelNo :=
  orderByRank (Config.tickOrder s.tickDraws) (stalledChannels (ticked (restartPrescaler s)))

theorem tickEvent_eq_faultStalled (s : State) : tickEvent (restartPrescaler s) =
    finishEvent (faultStalled (timeoutOrder s) (raisedByTick s)) := rfl

theorem channel_raisedByTick (s : State) (n : ChannelNo) :
    (raisedByTick s).channel n = tickChannel (s.channel n) :=
  channel_ticked (restartPrescaler s) n

/-- Beside the channels a tick raises the tick count and the head age (R123, R154). -/
theorem raisedByTick_eq (s : State) : raisedByTick s =
    { s with
      channels := (raisedByTick s).channels
      timer := { s.timer with prescaler := 0, tickCount := s.timer.tickCount + 1 }
      queue := { s.queue with headAge :=
        if s.queue.records ≠ [] ∧ s.queue.headAge ≠ 255 then s.queue.headAge + 1
        else s.queue.headAge }
      tickDraws := s.tickDraws + 1 } := by
  rw [← tickHeadAge_eq]
  rfl

theorem timeoutOrder_nodup (s : State) : (timeoutOrder s).Nodup :=
  (orderByRank_perm _ _).nodup_iff.mpr (channelNumbers_nodup.filter _)

/-- The channels that a tick brings to their limits are those that time out on it (R159). -/
theorem mem_timeoutOrder : n ∈ timeoutOrder s ↔ stalled ((raisedByTick s).channel n) = true := by
  have order := orderByRank_perm (Config.tickOrder s.tickDraws) (stalledChannels (ticked (restartPrescaler s)))
  have listed : n ∈ timeoutOrder s ↔ n ∈ stalledChannels (ticked (restartPrescaler s)) := order.mem_iff
  rw [listed, stalledChannels, List.mem_filter]
  exact and_iff_right (mem_channelNumbers n)

/-- Settles O23: the microsecond before and at the period, the tick by its raised state and its order of
timeouts, and the row of one timeout. -/
theorem tickAndStallTimeout : Obligations.TickAndStallTimeout := by
  intro s
  refine ⟨fun idle => ⟨fun early => ?_, fun due => ?_⟩, readyForPeripheral_iff,
    ⟨raisedByTick s, timeoutOrder s, raisedByTick_eq s, channel_raisedByTick s, timeoutOrder_nodup s,
      fun n => mem_timeoutOrder.trans (stalled_iff _),
      congrArg Host.Outcome.next (tickEvent_eq_faultStalled s)⟩,
    fun n on ready reached => ?_, fun n unmet => ?_⟩
  · rw [step_idle idle, microsecond_of_early early]
  · rw [step_idle idle, microsecond_of_due due]
    rfl
  · rw [exec_stallTimeout, if_pos ((stalled_iff _).mpr ⟨on, ready, reached⟩)]
  · rw [exec_stallTimeout, if_neg fun due => ?_]
    obtain ⟨on, ready, reached⟩ := (stalled_iff _).mp due
    rcases unmet with off | unready | below
    · exact on off
    · rw [ready] at unready
      cases unready
    · exact below reached

end Sys2Proof.Machine
end

section
/-! SUPPORT. The log writer through every operation that is not its own: of it, a channel, a completion, a grant and a
tick change the fault order list alone (for O55). -/

namespace Sys2Proof.Machine

-- The proofs are elaborated in turn: side by side their threads outgrow the check's memory limit.
set_option Elab.async false

variable {s t u : State} {n : ChannelNo}

/-- Between `s` and `t` the log writer changes in nothing but the fault order list (R133). -/
def OnlyListed (s t : State) : Prop := ∃ order, t.log = { s.log with faultOrder := order }

namespace OnlyListed

theorem of_log (h : t.log = s.log := by rfl) : OnlyListed s t := ⟨s.log.faultOrder, h⟩

theorem refl (s : State) : OnlyListed s s := of_log

theorem trans (h : OnlyListed s t) (g : OnlyListed t u) : OnlyListed s u := by
  obtain ⟨order, log⟩ := h
  obtain ⟨order', log'⟩ := g
  exact ⟨order', by rw [log', log]⟩

/-! ### Faults, posts and links (R9, R11, R39, R41 to R45) -/

/-- A channel that faults joins the list (R11, R133). -/
theorem enterFaulted (s : State) (n : ChannelNo) (k : FaultKind) : OnlyListed s (enterFaulted n k s) :=
  ⟨s.log.faultOrder ++ [n], by rw [enterFaulted_eq]⟩

theorem turnAway (s : State) (n : ChannelNo) : OnlyListed s (turnAway n s) := by
  rw [turnAway_eq]
  exact of_log

theorem discardTransaction (s : State) (n : ChannelNo) : OnlyListed s (discardTransaction n s) :=
  of_log (discardTransaction_log s n)

theorem completeChannelCommand (s : State) (n : ChannelNo) (cmd : HostCommand) (r : ResultCode) :
    OnlyListed s (completeChannelCommand cmd n r s) := by
  rw [completeChannelCommand_eq]
  split
  · exact of_log
  · exact refl s

theorem makePost (s : State) (n : ChannelNo) (k : EventKind) (words : BitVec 16) :
    OnlyListed s (makePost n k words s) :=
  of_log (makePost_log s n k words)

theorem followLink (s : State) (n : ChannelNo) (addr : PhysAddr) : OnlyListed s (followLink n addr s) := by
  unfold Machine.followLink
  split
  · exact of_log
  · exact (of_log (t := s.putChannel n _)).trans (enterFaulted _ n _)

theorem settlingEnds (ends : SettlingEnds n s t) : OnlyListed s t := by
  cases ends with
  | follows addr => exact followLink s n addr
  | waits step => exact of_log
  | holds words => exact (makePost s n _ _).trans of_log
  | ends words => exact (makePost s n _ _).trans of_log

theorem settleFrom (s : State) (n : ChannelNo) (step : SettlingStep) (d : Transfer) :
    OnlyListed s (settleFrom n step d s) := by
  rcases settleFrom_ends s n step d with ends | ⟨k, words, ends⟩
  · exact settlingEnds ends
  · exact (makePost s n k words).trans (settlingEnds ends)

/-! ### The end of an event at a channel (R10, R19, R25, R52, R69) -/

theorem completeBlock (s : State) (n : ChannelNo) : OnlyListed s (completeBlock n s) := by
  unfold Machine.completeBlock
  split
  · exact refl s
  · exact settleFrom s n .report _

theorem resumeSettling (s : State) (n : ChannelNo) : OnlyListed s (resumeSettling n s) := by
  unfold Machine.resumeSettling
  split
  · exact refl s
  · exact settleFrom s n _ _

/-- A channel that posts, goes on to another state, and ends its command. -/
theorem leave (s : State) (n : ChannelNo) (k : EventKind) (words : BitVec 16) (c : Channel)
    (cmd : HostCommand) (r : ResultCode) :
    OnlyListed s (Machine.completeChannelCommand cmd n r ((Machine.makePost n k words s).putChannel n c)) :=
  (makePost s n k words).trans ((of_log (t := (Machine.makePost n k words s).putChannel n c)).trans
    (completeChannelCommand _ n cmd r))

theorem leaveHalting (s : State) (n : ChannelNo) : OnlyListed s (leaveHalting n s) := by
  unfold Machine.leaveHalting
  split
  · exact leave s n _ _ _ _ _
  · exact refl s

theorem leaveAborting (s : State) (n : ChannelNo) : OnlyListed s (leaveAborting n s) := by
  unfold Machine.leaveAborting
  split
  · exact leave s n _ _ _ _ _
  · exact refl s

theorem requestMet (met : RequestMet n s t) : OnlyListed s t := by
  cases met with
  | stands => exact refl s
  | turned => exact turnAway s n
  | faults k => exact enterFaulted s n k
  | answered _ running others log => exact of_log log

theorem meetRequest (s : State) (n : ChannelNo) : OnlyListed s (meetRequest n s) :=
  requestMet (meetRequest_met s n)

theorem carryOn (s : State) (n : ChannelNo) : OnlyListed s (carryOn n s) :=
  (resumeSettling s n).trans <| (leaveHalting _ n).trans <| (leaveAborting _ n).trans <|
    (completeBlock _ n).trans <| (meetRequest _ n).trans <| (completeBlock _ n).trans (meetRequest _ n)

/-! ### Arrival (R50, R51) -/

/-- A request presented after an update beside the log writer. -/
theorem present (s : State) (n : ChannelNo) (r : LinkRequest) (h : t.log = s.log := by rfl) :
    OnlyListed s (present n r t) :=
  (of_log (t := t.putChannel n { t.channel n with request := some r }) h).trans (carryOn _ n)

theorem arrive (s : State) (n : ChannelNo) (r : LinkRequest) : OnlyListed s (arrive n r s) := by
  unfold Machine.arrive
  split
  · exact of_log
  · split
    · exact of_log
    · exact present s n r

theorem arriveFail (s : State) (n : ChannelNo) : OnlyListed s (arriveFail n s) := by
  unfold Machine.arriveFail
  split
  · exact of_log
  · exact present s n .fail

theorem lowerRequestValid (s : State) (n : ChannelNo) : OnlyListed s (lowerRequestValid n s) := by
  unfold Machine.lowerRequestValid
  dsimp only
  split
  · split
    · exact of_log
    · exact present s n _
  · exact of_log

/-! ### Completions (R34, R59, R62, R86, R106) -/

theorem acceptDescriptor (s : State) (n : ChannelNo) (words : List Word) :
    OnlyListed s (acceptDescriptor n words s) := by
  unfold Machine.acceptDescriptor
  split
  · exact enterFaulted s n _
  · exact of_log
  · unfold acceptLinkOnly
    dsimp only
    split
    · exact (of_log (t := s.putChannel n _)).trans (followLink _ n _)
    · exact (of_log (t := s.putChannel n _)).trans (enterFaulted _ n _)

theorem descWordArrives (s : State) (n : ChannelNo) (w : Word) : OnlyListed s (descWordArrives n w s) := by
  unfold Machine.descWordArrives
  dsimp only
  split
  · exact (of_log (t := dropFetched n (keepDescWord n w s))).trans (acceptDescriptor _ n _)
  · exact of_log

theorem deliverDescRead (s : State) (n : ChannelNo) (r : BusRead) :
    OnlyListed s (deliverDescRead n r s) := by
  unfold Machine.deliverDescRead
  split
  · split
    · exact descWordArrives s n _
    · exact enterFaulted s n _
  · split
    · exact of_log
    · exact enterFaulted s n _
  · exact refl s

theorem deliverDataWrite (s : State) (n : ChannelNo) (r : BusWrite) :
    OnlyListed s (deliverDataWrite n r s) := by
  unfold Machine.deliverDataWrite
  split
  · split
    · exact of_log
    · exact enterFaulted s n _
  · exact refl s

theorem deliverDataRead (s : State) (n : ChannelNo) (r : BusRead) :
    OnlyListed s (deliverDataRead n r s) := by
  unfold Machine.deliverDataRead
  split
  · split
    · exact of_log
    · exact enterFaulted s n _
  · exact refl s

theorem handBack (n : ChannelNo) (d : Delivery) {deliver : State → State}
    (delivered : OnlyListed s (deliver s)) : OnlyListed s (handBack n d deliver s) := by
  cases d with
  | deliver => exact delivered.trans (carryOn _ n)
  | discard => exact carryOn s n
  | orphan => exact refl s

theorem deliverMapRead (s : State) (r : BusRead) : OnlyListed s (deliverMapRead r s) := by
  unfold Machine.deliverMapRead
  split
  · unfold fillEntry
    dsimp only
    split <;> exact of_log
  · exact of_log
  · exact refl s

/-! ### Grants and timeouts (R79, R104, R159) -/

theorem arbitrated (a : Arbitrated s t) : OnlyListed s t := by
  induction a with
  | rests => exact refl _
  | issues _ issued =>
    obtain ⟨p, v, rfl, -⟩ := issued.frame
    exact of_log
  | refuses _ n k _ _ _ ih => exact (enterFaulted _ n k).trans ih

theorem faultStalled (due : List ChannelNo) : ∀ s : State, OnlyListed s (faultStalled due s) := by
  induction due with
  | nil => exact refl
  | cons n rest ih => exact fun s => (enterFaulted s n .stallTimeout).trans (ih _)

/-! ### Channel commands (R22 to R24) -/

theorem continueFrom (s : State) (n : ChannelNo) : OnlyListed s (continueFrom n s) := by
  have restart : OnlyListed s (restartFetch n s) := by
    rw [restartFetch_eq]
    exact (discardTransaction s n).trans of_log
  unfold Machine.continueFrom
  dsimp only
  split
  · exact of_log
  · exact restart
  · exact settlingEnds (settleSelect_ends s n _)
  · exact restart
  · exact refl s

theorem enterAborting (s : State) (n : ChannelNo) : OnlyListed s (enterAborting n s) := by
  rw [enterAborting_eq]
  exact of_log

end OnlyListed

end Sys2Proof.Machine
end

section
/-! SUPPORT. Every step keeps the log's ranges and the record under way in its slot (O55): the log writer's own
operations, the commands SET LOG, LOG STOP and LOG CONSUMED, and the whole of each command. -/

namespace Sys2Proof.Machine

-- The proofs are elaborated in turn: side by side their threads outgrow the check's memory limit.
set_option Elab.async false

variable {s t : State} {n : ChannelNo} {u : UnderWay}

/-! ### When a record begins, and where one that is under way stands (R137, R144) -/

theorem ringRecordDue_iff : ringRecordDue s = some n ↔
    s.log.underWay = none ∧ s.log.state = .running ∧ logStopWaits s = false ∧
      s.log.unconsumed < s.log.capacity ∧ s.log.faultOrder.head? = some n := by
  simp only [ringRecordDue, Option.ite_none_right_eq_some, Bool.and_eq_true, beq_iff_eq,
    Option.isNone_iff_eq_none, decide_eq_true_eq, Bool.not_eq_true']
  tauto

theorem overflowRecordDue_iff : overflowRecordDue s = some n ↔
    s.log.underWay = none ∧ s.log.state = .running ∧ logStopWaits s = false ∧
      s.log.unconsumed = s.log.capacity ∧ s.log.faultOrder.head? = some n := by
  simp only [overflowRecordDue, Option.ite_none_right_eq_some, Bool.and_eq_true, beq_iff_eq,
    Option.isNone_iff_eq_none, Bool.not_eq_true']
  tauto

theorem underWayFits_iff {l : LogWriter} : underWayFits l = true ↔ ∀ u, l.underWay = some u →
    l.state = .running ∧
      (∀ n, u.target = .channel n → l.unconsumed < l.capacity ∧ u.slot = l.writeIndex.setWidth 11) ∧
      ∀ r, u.target = .overflow r → u.slot = l.capacity := by
  unfold underWayFits
  cases l.underWay with
  | none => simp
  | some u => cases target : u.target <;> simp [target]

/-- With no record under way there is none to fit. -/
theorem underWayFits_of_none {l : LogWriter} (none : l.underWay = none) : underWayFits l = true := by
  simp only [underWayFits, none]

/-- The invariant does not look at the fault order list. -/
theorem LogInv.onlyListed (h : LogInv s) (same : OnlyListed s t) : LogInv t := by
  obtain ⟨order, e⟩ := same
  exact
    { region := by rw [e]; exact h.region
      capacity := by rw [e]; exact h.capacity
      set := by rw [e]; exact h.set
      index := by rw [e]; exact h.index
      used := by rw [e]; exact h.used
      full := by rw [e]; exact h.full
      sequence := by rw [e]; exact h.sequence
      fits := by rw [e]; exact h.fits }

theorem LogInv.of_log (h : LogInv s) (log : t.log = s.log := by rfl) : LogInv t := h.onlyListed (.of_log log)

/-- A log that is not OFF has a ring of 2 to 1024 slots (R134). -/
theorem LogInv.ring (h : LogInv s) (on : s.log.state ≠ .off) :
    2 ≤ s.log.capacity.toNat ∧ s.log.capacity.toNat ≤ 1024 :=
  h.capacity.resolve_left (h.set on)

/-! ### The sequence, the write index and U (R139, R140, R149) -/

theorem nextSequenceAfter_ne_zero (x : BitVec 16) : nextSequenceAfter x ≠ 0 := by
  unfold nextSequenceAfter
  split
  · decide
  · bv_omega

/-- W stays a slot of the ring (R140). -/
theorem nextWriteIndex_lt (w : BitVec 10) {c : BitVec 11} (some : 0 < c.toNat) (bound : c.toNat ≤ 1024) :
    (nextWriteIndex w c).toNat < c.toNat := by
  have slot : (w.toNat + 1) % c.toNat < c.toNat := Nat.mod_lt _ some
  rw [nextWriteIndex, BitVec.toNat_ofNat, Nat.mod_eq_of_lt (by omega)]
  exact slot

/-- A consumption of no more than U takes just that many from it (R149). -/
theorem toNat_consumed {x : BitVec 11} {a : Word} (enough : a.toNat ≤ x.toNat) :
    (x - a.setWidth 11).toNat = x.toNat - a.toNat := by
  have whole : (a.setWidth 11).toNat = a.toNat := by
    rw [BitVec.toNat_setWidth, Nat.mod_eq_of_lt (by omega)]
  rw [BitVec.toNat_sub_of_le (by rw [BitVec.le_def]; omega), whole]

theorem consumedState_eq (x : LogState) : consumedState x = if x = .full then .running else x := by
  cases x <;> rfl

/-! ### Records begun (R137, R144, R148) -/

/-- A record begun in RUNNING, in its own slot and with room. -/
theorem LogInv.putUnderWay (h : LogInv s)
    (fits : underWayFits { s.log with underWay := some u } = true) :
    LogInv { s with log := { s.log with underWay := some u } } :=
  ⟨h.region, h.capacity, h.set, h.index, h.used, h.full, h.sequence, fits⟩

section Log

variable (h : LogInv s)
include h

theorem LogInv.beginRingRecord : LogInv (beginRingRecord s) := by
  unfold Machine.beginRingRecord
  split
  · exact h
  · next n due =>
    obtain ⟨-, running, -, room, -⟩ := ringRecordDue_iff.mp due
    exact h.putUnderWay (by simp [underWayFits, running, room])

theorem LogInv.beginOverflowRecord : LogInv (beginOverflowRecord s) := by
  unfold Machine.beginOverflowRecord
  split
  · exact h
  · next n due =>
    obtain ⟨-, running, -, -, -⟩ := overflowRecordDue_iff.mp due
    exact h.putUnderWay (by simp [underWayFits, running])

/-- The log enters OFF with no record under way (R148). -/
theorem LogInv.stopLog (none : s.log.underWay = none) (r : ResultCode) : LogInv (stopLog r s) :=
  ⟨h.region, h.capacity, absurd rfl, h.index, h.used, nofun, h.sequence, underWayFits_of_none none⟩

theorem LogInv.endLogStop : LogInv (endLogStop s) := by
  unfold Machine.endLogStop
  split
  · next due =>
    simp only [logStopDue, Bool.and_eq_true, Option.isNone_iff_eq_none] at due
    exact h.stopLog due.2 _
  · exact h

theorem LogInv.logWork : LogInv (logWork s) := h.endLogStop.beginRingRecord.beginOverflowRecord

/-! ### Words of a record completed (R138 to R140, R144, R145) -/

section Word

variable (under : s.log.underWay = some u)
include under

theorem LogInv.running : s.log.state = .running := (underWayFits_iff.mp h.fits u under).1

/-- The ring record had room, so that W goes on in the ring and U stays at most C (R140). -/
theorem LogInv.finishRingRecord (target : u.target = .channel n) : LogInv (finishRingRecord n s) := by
  obtain ⟨running, ring, -⟩ := underWayFits_iff.mp h.fits u under
  obtain ⟨room, -⟩ := ring n target
  obtain ⟨some, bound⟩ := h.ring (by simp [running])
  have marked : LogInv (markLogged n s) ∧ (markLogged n s).log = s.log := by
    unfold markLogged
    split <;> exact ⟨h.of_log, rfl⟩
  obtain ⟨h', log⟩ := marked
  unfold Machine.finishRingRecord
  dsimp only
  rw [log]
  exact
    { region := h.region
      capacity := h.capacity
      set := h.set
      index := .inr (nextWriteIndex_lt _ (by omega) bound)
      used := by
        show s.log.unconsumed + 1 ≤ s.log.capacity
        bv_omega
      full := fun full => by
        have full : s.log.state = .full := full
        rw [running] at full
        cases full
      sequence := nextSequenceAfter_ne_zero _
      fits := rfl }

/-- The log is taken to FULL only where U equals C (R144). -/
theorem LogInv.finishOverflowRecord : LogInv (finishOverflowRecord s) := by
  unfold Machine.finishOverflowRecord
  dsimp only
  split
  · next full =>
    exact ⟨h.region, h.capacity, fun _ => h.set (by simp [h.running under]), h.index, h.used,
      fun _ => full, nextSequenceAfter_ne_zero _, rfl⟩
  · exact ⟨h.region, h.capacity, h.set, h.index, h.used, h.full, nextSequenceAfter_ne_zero _, rfl⟩

theorem LogInv.logWordDone : LogInv (logWordDone u s) := by
  unfold Machine.logWordDone
  split
  · split
    · next n target => exact h.finishRingRecord under target
    · exact h.finishOverflowRecord under
  · refine h.putUnderWay (underWayFits_iff.mpr fun v next => ?_)
    cases next
    exact underWayFits_iff.mp h.fits u under

theorem LogInv.abandonRecord : LogInv (abandonRecord s) :=
  ⟨h.region, h.capacity, fun _ => h.set (by simp [h.running under]), h.index, h.used, nofun, h.sequence, rfl⟩

end Word

theorem LogInv.deliverLogWrite (r : BusWrite) : LogInv (deliverLogWrite r s) := by
  unfold Machine.deliverLogWrite
  split
  · next u under => exact h.logWordDone under
  · next u under => exact h.abandonRecord under
  · exact h

/-! ### The end of an event (R106) -/

theorem LogInv.arbitrate : LogInv (arbitrate s) := h.onlyListed (.arbitrated (arbitrate_arbitrated s))

theorem LogInv.finishEvent : LogInv (finishEvent s) := by
  have released : LogInv (endWriteEntry (endDrain s)) :=
    (h.of_log (endDrain_command s).2).of_log (endWriteEntry_loader _).2
  exact released.logWork.arbitrate.logWork.arbitrate.of_log

theorem LogInv.finishChannelEvent (n : ChannelNo) : LogInv (finishChannelEvent n s) :=
  (h.onlyListed (.carryOn s n)).finishEvent

/-! ### Completions (R106) -/

theorem LogInv.freePort : LogInv (freePort s) := h.of_log

theorem LogInv.completeDescRead (r : BusRead) : LogInv (completeDescRead r s) := by
  unfold Machine.completeDescRead
  split
  · exact (h.freePort.onlyListed (.handBack _ _ (.deliverDescRead _ _ r))).finishEvent
  · exact h

theorem LogInv.completeDataWrite (r : BusWrite) : LogInv (completeDataWrite r s) := by
  unfold Machine.completeDataWrite
  split
  · next n m p w a d flight =>
    have marked : LogInv (if modifiedBy r d then setModified m p (Machine.freePort s) else Machine.freePort s) := by
      split <;> exact h.of_log
    exact (marked.onlyListed (.handBack _ _ (.deliverDataWrite _ _ r))).finishEvent
  · exact h

theorem LogInv.completeDataRead (r : BusRead) : LogInv (completeDataRead r s) := by
  unfold Machine.completeDataRead
  split
  · exact (h.freePort.onlyListed (.handBack _ _ (.deliverDataRead _ _ r))).finishEvent
  · exact h

theorem LogInv.completeMapRead (r : BusRead) : LogInv (completeMapRead r s) := by
  unfold Machine.completeMapRead
  split
  · split
    · exact (h.freePort.onlyListed (.deliverMapRead _ r)).finishEvent
    · exact h.freePort.finishEvent
  · exact h

theorem LogInv.completeLogWrite (r : BusWrite) : LogInv (completeLogWrite r s) := by
  unfold Machine.completeLogWrite
  split
  · split
    · exact (h.freePort.deliverLogWrite r).finishEvent
    · exact h.freePort.finishEvent
  · exact h

end Log

/-! ### The event queue and the interval timer (R118, R154, R159) -/

theorem LogInv.popEvent (h : LogInv s) : LogInv (popEvent s) := by
  unfold Machine.popEvent
  split
  · exact h.of_log
  · dsimp only
    split
    · exact h.of_log
    · next m p _ => exact LogInv.finishChannelEvent h.of_log m

theorem LogInv.tickEvent (h : LogInv s) : LogInv (tickEvent s) := by
  rw [tickEvent_eq]
  have drawn : LogInv { ticked s with tickDraws := (ticked s).tickDraws + 1 } := h.of_log
  exact (drawn.onlyListed (.faultStalled _ _)).finishEvent

theorem LogInv.microsecond (h : LogInv s) : LogInv (microsecond s) := by
  have restarted : LogInv (restartPrescaler s) := h.of_log
  unfold Machine.microsecond
  split
  · exact h.of_log
  · exact restarted.tickEvent

/-! ### Host commands (R14 to R28, R84, R90, R147 to R149) -/

section Taken

variable (h : LogInv s)
include h

/-- SET LOG forms an empty ring in a region that its operands have been held against (R147). -/
theorem LogInv.takeSetLog (range : operandsInRange (latch .setLog s) s = true)
    (check : stateCheck (latch .setLog s) s = none) :
    LogInv (takeSetLog (latch .setLog s) (duringCommand .setLog s)) := by
  obtain ⟨aligned, space, some, bound, room⟩ := (operandsInRange_iff s .setLog).mp range
  have off : s.log.state = .off := by simpa [stateCheck, latch, badStateUnless_none] using check
  have base : (s.command.operandA.setWidth 24).toNat = s.command.operandA.toNat := by
    rw [BitVec.toNat_setWidth, Nat.mod_eq_of_lt space]
  have capacity : (s.command.operandB.setWidth 11).toNat = s.command.operandB.toNat := by
    rw [BitVec.toNat_setWidth, Nat.mod_eq_of_lt (by omega)]
  have none : s.log.underWay = none := by
    by_contra under
    obtain ⟨u, under⟩ := Option.ne_none_iff_exists'.mp under
    have running := h.running under
    rw [off] at running
    cases running
  have set : LogInv { s with log := { s.log with
      state := .running
      base := s.command.operandA.setWidth 24
      capacity := s.command.operandB.setWidth 11
      writeIndex := 0
      unconsumed := 0
      nextSequence := 1 } } :=
    { region := by
        show (s.command.operandA.setWidth 24).toNat % 4 = 0 ∧ (s.command.operandA.setWidth 24).toNat +
          4 * ((s.command.operandB.setWidth 11).toNat + 1) ≤ 2 ^ 24
        omega
      capacity := .inr (by
        show 2 ≤ (s.command.operandB.setWidth 11).toNat ∧ (s.command.operandB.setWidth 11).toNat ≤ 1024
        omega)
      set := fun _ zero => by
        have zero : s.command.operandB.setWidth 11 = 0 := zero
        rw [zero] at capacity
        simp at capacity
        omega
      index := .inl rfl
      used := BitVec.le_def.mpr (Nat.zero_le _)
      full := nofun
      sequence := by
        show (1 : BitVec 16) ≠ 0
        decide
      fits := underWayFits_of_none none }
  exact LogInv.finishEvent set.of_log

theorem LogInv.takeLogStop : LogInv (takeLogStop (latch .logStop s) (duringCommand .logStop s)) := by
  unfold Machine.takeLogStop
  split
  · exact h.of_log
  · next free =>
    have during : LogInv (duringCommand .logStop s) := h.of_log
    exact (during.stopLog (by simpa using free) .ok).of_log

/-- LOG CONSUMED takes no more than U, and a FULL log goes on in RUNNING (R149). -/
theorem LogInv.takeLogConsumed (check : stateCheck (latch .logConsumed s) s = none) :
    LogInv (takeLogConsumed (latch .logConsumed s) (duringCommand .logConsumed s)) := by
  have enough : s.command.operandA.toNat ≤ s.log.unconsumed.toNat := by
    by_contra more
    have refused : stateCheck (latch .logConsumed s) s = some .underrun := if_pos (Nat.lt_of_not_le more)
    rw [check] at refused
    cases refused
  have left := toNat_consumed enough
  have below : s.log.unconsumed - s.command.operandA.setWidth 11 ≤ s.log.unconsumed := by
    rw [BitVec.le_def, left]
    omega
  have consumed : LogInv { s with log := { s.log with
      unconsumed := s.log.unconsumed - s.command.operandA.setWidth 11
      state := consumedState s.log.state } } :=
    { region := h.region
      capacity := h.capacity
      set := fun on => h.set fun off => on (by simp [off, consumedState])
      index := h.index
      used := BitVec.le_trans below h.used
      full := fun full => by
        have full : consumedState s.log.state = .full := full
        cases state : s.log.state <;> simp [state, consumedState] at full
      sequence := h.sequence
      fits := underWayFits_iff.mpr fun u under => by
        obtain ⟨running, ring, overflow⟩ := underWayFits_iff.mp h.fits u under
        exact ⟨by simp [running, consumedState],
          fun n target => ⟨Std.lt_of_le_of_lt below (ring n target).1, (ring n target).2⟩, overflow⟩ }
  exact LogInv.finishEvent consumed.of_log

/-- The owners' effects; SET LOG and LOG CONSUMED lean on their checks (R165). -/
theorem LogInv.takeCommand (cmd : HostCommand) (range : operandsInRange (latch cmd s) s = true)
    (check : stateCheck (latch cmd s) s = none) :
    LogInv (takeCommand cmd (latch cmd s) (duringCommand cmd s)) := by
  have during : LogInv (duringCommand cmd s) := h.of_log
  cases cmd with
  | bind => exact h.of_log
  | unbind => exact h.of_log
  | start => exact LogInv.finishChannelEvent h.of_log _
  | halt => exact LogInv.finishChannelEvent h.of_log _
  | continueChannel =>
    have completed : LogInv (completeCommand .ok (duringCommand .continueChannel s)) := h.of_log
    exact (completed.onlyListed (.continueFrom _ _)).finishChannelEvent _
  | abort => exact (during.onlyListed (.enterAborting _ _)).finishChannelEvent _
  | clearFault => exact h.onlyListed ⟨_, rfl⟩
  | readChannel => exact h.of_log
  | loadMap =>
    rw [Machine.takeCommand, takeLoadMap_eq]
    exact LogInv.finishEvent (during.of_log (endDrain_command _).2)
  | writeEntry =>
    show LogInv (takeWriteEntry _ _)
    unfold takeWriteEntry
    dsimp only
    split <;> exact h.of_log
  | readEntry => exact h.of_log
  | probe => exact h.of_log
  | setLog => exact h.takeSetLog range check
  | logStop => exact h.takeLogStop
  | logConsumed => exact h.takeLogConsumed check

/-- A command presented is discarded, refused or taken (R163 to R165). -/
theorem LogInv.presentCommand (cmd : HostCommand) :
    LogInv (presentCommand cmd (Machine.takeCommand cmd) s) := by
  by_cases idle : PortIdle s
  · cases check : commandCheck (latch cmd s) s with
    | some r =>
      rw [presentCommand_refused s cmd _ idle r check]
      exact h.of_log
    | none =>
      rw [presentCommand_taken s cmd _ idle check]
      unfold commandCheck at check
      split at check
      · next range => exact h.takeCommand cmd range check
      · cases check
  · rw [presentCommand_busy s cmd _ idle]
    exact h.of_log

end Taken

/-! ### Resets and the register window (R135, R171) -/

/-- Either reset leaves the log OFF, with no region and no record (R135). -/
theorem LogInv.of_reset (log : t.log = LogWriter.reset) : LogInv t := logInv_reset.of_log log

section Window

variable (h : LogInv s)
include h

theorem LogInv.writeControl (w : Word) : LogInv (writeControl w s) := by
  unfold Machine.writeControl
  split
  · exact .of_reset rfl
  · exact LogInv.finishEvent h.of_log

theorem LogInv.writeCommand (w : Word) : LogInv (writeCommand w s) := by
  unfold Machine.writeCommand
  split
  · exact h.presentCommand _
  · unfold presentUnknown
    split <;> exact h.of_log

theorem LogInv.writeTimerPeriod (w : Word) : LogInv (writeTimerPeriod w s) := by
  unfold Machine.writeTimerPeriod
  split
  · exact h
  · exact h.of_log

theorem LogInv.windowWrite (offset : BitVec 5) (w : Word) : LogInv (windowWrite offset w s) := by
  unfold Machine.windowWrite
  split
  · exact h.writeControl w
  · exact h.of_log
  · exact h.writeCommand w
  · exact h.of_log
  · exact h.of_log
  · exact h.of_log
  · exact h.of_log
  · exact h.writeTimerPeriod w
  · exact h

end Window

/-! ### Every command -/

/-- A row that acts where its condition holds, and changes nothing elsewhere. -/
theorem LogInv.ite (h : LogInv s) {p : Prop} [Decidable p] (acts : LogInv t) :
    LogInv (if p then t else s) := by
  split
  · exact acts
  · exact h

/-- Every command keeps the log's ranges and the record under way in its slot (R134 to R136, R139). -/
theorem LogInv.exec (h : LogInv s) (c : Instr) (run : exec c s = .next t) : LogInv t := by
  cases c <;> injection run with run <;> subst run
  case powerOnReset => exact .of_reset rfl
  case softReset w => exact .of_reset rfl
  case offer n w => exact (h.onlyListed (.arrive s n _)).finishEvent
  case ask n => exact (h.onlyListed (.arrive s n _)).finishEvent
  case endBlock n => exact (h.onlyListed (.arrive s n _)).finishEvent
  case fail n => exact (h.onlyListed (.arriveFail s n)).finishEvent
  case requestValidFall n => exact (h.onlyListed (.lowerRequestValid s n)).finishEvent
  case descReadComplete r => exact h.completeDescRead r
  case dataWriteComplete r => exact h.completeDataWrite r
  case dataReadComplete r => exact h.completeDataRead r
  case mapReadComplete r => exact h.completeMapRead r
  case logWriteComplete r => exact h.completeLogWrite r
  case grant => exact h.ite h.arbitrate.finishEvent
  case tick => exact LogInv.tickEvent h.of_log
  case stallTimeout n => exact h.ite (h.onlyListed (.enterFaulted s n _)).finishEvent
  case ageCondition => exact h.ite h.of_log
  case bind => exact h.presentCommand .bind
  case unbind => exact h.presentCommand .unbind
  case start => exact h.presentCommand .start
  case halt => exact h.presentCommand .halt
  case continueChannel => exact h.presentCommand .continueChannel
  case abort => exact h.presentCommand .abort
  case clearFault => exact h.presentCommand .clearFault
  case readChannel => exact h.presentCommand .readChannel
  case loadMap => exact h.presentCommand .loadMap
  case writeEntry => exact h.presentCommand .writeEntry
  case readEntry => exact h.presentCommand .readEntry
  case probe => exact h.presentCommand .probe
  case setLog => exact h.presentCommand .setLog
  case logStop => exact h.presentCommand .logStop
  case logConsumed => exact h.presentCommand .logConsumed
  case unknownCommand w => exact h.writeCommand w
  case masterEnable w => exact h.writeControl w
  case interruptEnable w => exact h.writeControl w
  case interruptStatusClear w => exact h.of_log
  case pop => exact h.popEvent
  case eventSettingsWrite w => exact h.of_log
  case timerPeriodWrite w => exact h.writeTimerPeriod w
  case registerWrite offset w => exact h.windowWrite offset w
  case waitingRequestMet n => exact h.ite ((h.onlyListed (.meetRequest s n)).finishChannelEvent n)
  case waitingPost n =>
    exact h.ite ((h.onlyListed ((OnlyListed.resumeSettling s n).trans (.leaveHalting _ n))).finishChannelEvent n)
  case blockComplete n => exact h.ite ((h.onlyListed (.completeBlock s n)).finishChannelEvent n)
  case leaveHalting n => exact h.ite ((h.onlyListed (.leaveHalting s n)).finishChannelEvent n)
  case leaveAborting n => exact h.ite ((h.onlyListed (.leaveAborting s n)).finishChannelEvent n)
  case drainEnd => exact h.ite (LogInv.finishEvent (h.of_log (endDrain_command s).2))
  case writeEntryReplace => exact h.ite (LogInv.finishEvent (h.of_log (endWriteEntry_loader s).2))
  case logRecordBegin => exact h.ite h.beginRingRecord.finishEvent
  case overflowRecordBegin => exact h.ite h.beginOverflowRecord.finishEvent
  case logStopComplete => exact h.ite h.endLogStop.finishEvent

/-- Settles O55: every command and every microsecond keeps the invariant, which the queue of commands does not
touch. -/
theorem logInvariantKept : Obligations.LogInvariantKept :=
  step_keeps (fun _ _ h => h.of_log) (fun c _ _ h run => h.exec c run) fun _ h => h.microsecond

end Sys2Proof.Machine
end

section
/-! SUPPORT. The log commands taken (O22), the completions of the log writer's words (O38), and the rows of the log
writer (O46). -/

namespace Sys2Proof.Machine

-- The proofs are elaborated in turn: side by side their threads outgrow the check's memory limit.
set_option Elab.async false

variable {s : State} {n : ChannelNo} {u : UnderWay}

/-! ### The log commands (R147 to R149) -/

/-- A log command is taken on legal operands and where its state check passes (R165). -/
theorem exec_logCommand (idle : PortIdle s) (cmd : HostCommand) (other : checksChannel cmd = false)
    (legal : LegalOperands cmd s) (passes : ∀ r, ¬ CheckFails cmd (s.channel 0) s r) :
    exec (commandInstr cmd) s = .next (takeCommand cmd (latch cmd s) (duringCommand cmd s)) :=
  exec_taken idle cmd (commandCheck_none s cmd 0 (fun checks => by rw [other] at checks; cases checks) legal passes)

theorem takeLogStop_of_none (l : Latched) (none : s.log.underWay = none) :
    takeLogStop l s = refreshInterrupts (stopLog .ok s) :=
  if_neg (by simp [none])

theorem takeLogStop_of_underWay (l : Latched) (under : s.log.underWay ≠ none) : takeLogStop l s = s :=
  if_pos (Option.isSome_iff_ne_none.mpr under)

/-- U after a consumption, as the claims write it (R149). -/
theorem consumed_eq {x : BitVec 11} {a : Word} (enough : a.toNat ≤ x.toNat) :
    x - a.setWidth 11 = BitVec.ofNat 11 (x.toNat - a.toNat) := by
  apply BitVec.eq_of_toNat_eq
  rw [toNat_consumed enough, BitVec.toNat_ofNat, Nat.mod_eq_of_lt (by omega)]

/-- Settles O22: SET LOG and LOG CONSUMED as they are taken, and LOG STOP with and without a record under way. -/
theorem logCommandsTaken : Obligations.LogCommandsTaken := by
  intro s idle
  refine ⟨fun legal off => ?_, fun on none => ?_, fun on under => ?_, fun legal enough => ?_⟩
  · exact exec_logCommand idle .setLog rfl legal fun r fails => fails.2 off
  · have taken := exec_logCommand idle .logStop rfl trivial fun r fails => on fails.2
    exact taken.trans (congrArg Host.Outcome.next (takeLogStop_of_none (latch .logStop s) none))
  · have taken := exec_logCommand idle .logStop rfl trivial fun r fails => on fails.2
    exact taken.trans (congrArg Host.Outcome.next (takeLogStop_of_underWay (latch .logStop s) under))
  · rw [← consumed_eq enough, ← consumedState_eq]
    exact exec_logCommand idle .logConsumed rfl legal fun r fails => Nat.not_lt.mpr enough fails.2

/-! ### Words of a record completed (R138 to R140, R144, R145) -/

theorem exec_logWriteComplete_deliver {a : PhysAddr} {x : Word} (r : BusWrite)
    (flight : s.port.inFlight = some { purpose := .logWrite x, address := a, delivery := .deliver }) :
    exec (.logWriteComplete r) s = .next (finishEvent (deliverLogWrite r (freePort s))) := by
  rw [exec_logWriteComplete_eq r flight, if_pos rfl]

theorem deliverLogWrite_ok (under : s.log.underWay = some u) : deliverLogWrite .ok s = logWordDone u s := by
  simp only [deliverLogWrite, under]

theorem deliverLogWrite_busError (under : s.log.underWay = some u) :
    deliverLogWrite .busError s = abandonRecord s := by
  simp only [deliverLogWrite, under]

/-- A word other than word 0 is counted (R138). -/
theorem logWordDone_counted (more : u.written ≠ 3) : logWordDone u s =
    { s with log := { s.log with underWay := some { u with written := u.written + 1 } } } :=
  if_neg more

theorem logWordDone_ring (last : u.written = 3) (target : u.target = .channel n) :
    logWordDone u s = finishRingRecord n s := by
  rw [logWordDone, if_pos last, target]

theorem logWordDone_overflow {r : OverflowRecord} (last : u.written = 3) (target : u.target = .overflow r) :
    logWordDone u s = finishOverflowRecord s := by
  rw [logWordDone, if_pos last, target]

theorem markLogged_unlogged {r : FaultRecord} (held : (s.channel n).fault = some (.unlogged r)) :
    markLogged n s = s.putChannel n { s.channel n with fault := some (.logged r.kind) } := by
  simp only [markLogged, held]

/-- Settles O38: a word counted, word 0 of either kind of record, and a bus error. -/
theorem logWriteCompletes : Obligations.LogWriteCompletes := by
  rintro s u a x flight under freed rfl sequence rfl
  have under : (freePort s).log.underWay = some u := under
  rw [exec_logWriteComplete_deliver .ok flight, exec_logWriteComplete_deliver .busError flight,
    deliverLogWrite_ok under, deliverLogWrite_busError under]
  refine ⟨fun more => ?_, fun n r last target held _ => ?_, fun r last target => ?_, rfl⟩
  · rw [logWordDone_counted more]
    rfl
  · have held : ((freePort s).channel n).fault = some (.unlogged r) := held
    rw [logWordDone_ring last target, finishRingRecord, markLogged_unlogged held]
    rfl
  · rw [logWordDone_overflow last target]
    exact ⟨fun full => congrArg (fun t => Host.Outcome.next (finishEvent t)) (if_pos full),
      fun room => congrArg (fun t => Host.Outcome.next (finishEvent t)) (if_neg room)⟩

/-! ### The rows of the log writer (R137, R144, R148) -/

theorem beginRingRecord_of_due (due : ringRecordDue s = some n) : beginRingRecord s =
    { s with
      log := { s.log with
        underWay := some { target := .channel n, slot := s.log.writeIndex.setWidth 11, written := 0 } } } := by
  simp only [beginRingRecord, due]

theorem beginOverflowRecord_of_due (due : overflowRecordDue s = some n) : beginOverflowRecord s =
    { s with
      log := { s.log with
        underWay := some { target := .overflow (overflowRecord s n), slot := s.log.capacity, written := 0 } } } := by
  simp only [beginOverflowRecord, due]

/-- The overflow record takes its fields from the unlogged record of its channel (R144). -/
theorem overflowRecord_unlogged {r : FaultRecord} (held : (s.channel n).fault = some (.unlogged r)) :
    overflowRecord s n =
      { channel := n
        descAddr := r.descAddr
        logical := r.logical
        waiting := BitVec.ofNat 16 s.log.faultOrder.length
        stamp := s.timer.tickCount } := by
  simp only [overflowRecord, held]

theorem ringRecordDue_of_unmet (unmet : s.log.underWay ≠ none ∨ s.log.state ≠ .running ∨
    logStopWaits s = true ∨ s.log.faultOrder = [] ∨ s.log.capacity ≤ s.log.unconsumed) : ringRecordDue s = none := by
  refine Option.eq_none_iff_forall_ne_some.mpr fun m due => ?_
  obtain ⟨none, running, free, room, head⟩ := ringRecordDue_iff.mp due
  have empty : s.log.faultOrder = [] := by simpa [none, running, free, BitVec.not_le.mpr room] using unmet
  rw [empty] at head
  cases head

theorem overflowRecordDue_of_unmet (unmet : s.log.underWay ≠ none ∨ s.log.state ≠ .running ∨
    logStopWaits s = true ∨ s.log.faultOrder = [] ∨ s.log.unconsumed ≠ s.log.capacity) :
    overflowRecordDue s = none := by
  refine Option.eq_none_iff_forall_ne_some.mpr fun m due => ?_
  obtain ⟨none, running, free, full, head⟩ := overflowRecordDue_iff.mp due
  have empty : s.log.faultOrder = [] := by simpa [none, running, free, full] using unmet
  rw [empty] at head
  cases head

theorem exec_logRecordBegin_of_none (none : ringRecordDue s = none) : exec .logRecordBegin s = .next s :=
  congrArg Host.Outcome.next (if_neg (by simp [none]))

theorem exec_overflowRecordBegin_of_none (none : overflowRecordDue s = none) :
    exec .overflowRecordBegin s = .next s :=
  congrArg Host.Outcome.next (if_neg (by simp [none]))

theorem exec_logStopComplete_of_not_due (waits : logStopDue s = false) : exec .logStopComplete s = .next s :=
  congrArg Host.Outcome.next (if_neg (by simp [waits]))

/-- Settles O46: each row where its record or its completion is due, and where it is not. -/
theorem logRecordsBegin : Obligations.LogRecordsBegin := by
  refine fun s n others => ⟨fun none running free list room => ?_, fun r none running free list full held => ?_,
    fun none waits => ?_, fun unmet => exec_logRecordBegin_of_none (ringRecordDue_of_unmet unmet),
    fun unmet => exec_overflowRecordBegin_of_none (overflowRecordDue_of_unmet unmet),
    fun unmet => exec_logStopComplete_of_not_due ?_⟩
  · have due : ringRecordDue s = some n := ringRecordDue_iff.mpr ⟨none, running, free, room, by simp [list]⟩
    rw [exec_logRecordBegin (by simp [due]), beginRingRecord_of_due due]
  · have due : overflowRecordDue s = some n :=
      overflowRecordDue_iff.mpr ⟨none, running, free, full, by simp [list]⟩
    rw [exec_overflowRecordBegin (by simp [due]), beginOverflowRecord_of_due due, overflowRecord_unlogged held]
  · have due : logStopDue s = true := by simp [logStopDue, waits, none]
    rw [exec_logStopComplete due, endLogStop, if_pos due]
    rfl
  · rcases unmet with under | free
    · simp [logStopDue, Option.isSome_iff_ne_none, under]
    · simp [logStopDue, free]

end Sys2Proof.Machine
end

section
/-! SUPPORT. A write to TIMER PERIOD, and the one that follows a tick (O24). -/

namespace Sys2Proof.Machine

/-! ### The write (R155, R178) -/

theorem exec_timerPeriodWrite (w : Word) (s : State) :
    exec (.timerPeriodWrite w) s = .next (writeTimerPeriod w s) := rfl

/-- The low half of the word decides and is stored; no bit above it is looked at (R155). -/
theorem writeTimerPeriod_eq (w : Word) (s : State) :
    writeTimerPeriod w s = if w.extractLsb' 0 16 = 0 then s
      else { s with timer := { s.timer with period := w.extractLsb' 0 16, prescaler := 0 } } := by
  have low : w.setWidth 16 = w.extractLsb' 0 16 := BitVec.setWidth_eq_extractLsb' (by decide)
  rw [writeTimerPeriod, low]

/-- A period of 1 to 65535 is stored, and the prescaler restarts (R155). -/
theorem exec_timerPeriodWrite_of_nonzero {w : Word} (nonzero : w.extractLsb' 0 16 ≠ 0) (s : State) :
    exec (.timerPeriodWrite w) s =
      .next { s with timer := { s.timer with period := w.extractLsb' 0 16, prescaler := 0 } } := by
  rw [exec_timerPeriodWrite, writeTimerPeriod_eq, if_neg nonzero]

/-- A period of 0 is discarded (R155). -/
theorem exec_timerPeriodWrite_of_zero {w : Word} (zero : w.extractLsb' 0 16 = 0) (s : State) :
    exec (.timerPeriodWrite w) s = .next s := by
  rw [exec_timerPeriodWrite, writeTimerPeriod_eq, if_pos zero]

/-! ### The timer over a tick (R153, R154) -/

theorem enterFaulted_timer (s : State) (n : ChannelNo) (k : FaultKind) :
    (enterFaulted n k s).timer = s.timer := by
  rw [enterFaulted_eq]
  rfl

/-- The channels that time out leave the timer as it stands (R159). -/
theorem faultStalled_timer (due : List ChannelNo) : ∀ s : State, (faultStalled due s).timer = s.timer := by
  induction due with
  | nil => exact fun _ => rfl
  | cons n rest ih => exact fun s => (ih _).trans (enterFaulted_timer s n .stallTimeout)

/-- Neither its timeouts nor the end of its event move the timer after a tick: the prescaler stands at 0 and the
tick count has risen by 1 (R153, R154). -/
theorem tickEvent_timer (s : State) : (tickEvent (restartPrescaler s)).timer =
    { s.timer with prescaler := 0, tickCount := s.timer.tickCount + 1 } := by
  rw [tickEvent_eq_faultStalled, (Ends.finishEvent _).timer, faultStalled_timer, raisedByTick_eq]

/-- Settles O24: the read, the write of a period and of 0, and the write after a tick, which counts that tick and
no other. -/
theorem timerPeriodWrites : Obligations.TimerPeriodWrites := by
  intro s w
  refine ⟨halfWord_eq _, fun nonzero => exec_timerPeriodWrite_of_nonzero nonzero s,
    fun zero => exec_timerPeriodWrite_of_zero zero s, fun t ticks nonzero =>
      ⟨_, exec_timerPeriodWrite_of_nonzero nonzero t, rfl, rfl, ?_⟩⟩
  injection ticks with ticked
  rw [← ticked, tickEvent_timer]

end Sys2Proof.Machine
end

section
/-! SUPPORT. The REFUSED latch through every operation that is not the presenting of a command: none of them moves
it (for O11, R164). -/

namespace Sys2Proof.Machine

-- The proofs are elaborated in turn: side by side their threads outgrow the check's memory limit.
set_option Elab.async false

variable (s : State) (n : ChannelNo)

/-! ### The shared operations (R11, R50, R96, R115, R166) -/

@[simp] theorem refused_completeChannelCommand (cmd : HostCommand) (r : ResultCode) :
    (completeChannelCommand cmd n r s).command.refused = s.command.refused := by
  rw [completeChannelCommand_eq]
  split <;> rfl

@[simp] theorem refused_answerRequest (a : Answer) :
    (answerRequest n a s).command.refused = s.command.refused := rfl

@[simp] theorem refused_turnAway : (turnAway n s).command.refused = s.command.refused := by
  rw [turnAway_eq]
  rfl

@[simp] theorem refused_discardTransaction :
    (discardTransaction n s).command.refused = s.command.refused := by
  rw [discardTransaction_eq]

/-- A fault can end the HALT of its channel, which leaves REFUSED as it is (R19). -/
@[simp] theorem refused_enterFaulted (k : FaultKind) :
    (enterFaulted n k s).command.refused = s.command.refused := by
  rw [enterFaulted_eq]
  dsimp only
  split <;> rfl

/-! ### Links and the settling sequence (R39, R41 to R45) -/

@[simp] theorem refused_followLink (addr : PhysAddr) :
    (followLink n addr s).command.refused = s.command.refused := by
  unfold followLink
  split
  · rfl
  · simp

theorem SettlingEnds.refused {s t : State} {n : ChannelNo} (ends : SettlingEnds n s t) :
    t.command.refused = s.command.refused := by
  cases ends with
  | follows addr => exact refused_followLink s n addr
  | waits step => rfl
  | holds words => simp
  | ends words => simp [endChain]

theorem refused_settleFrom (step : SettlingStep) (d : Transfer) :
    (settleFrom n step d s).command.refused = s.command.refused := by
  rcases settleFrom_ends s n step d with ends | ⟨k, words, ends⟩
  · exact ends.refused
  · simpa using ends.refused

/-! ### The end of an event at a channel (R10, R19, R25, R52, R69) -/

@[simp] theorem refused_completeBlock : (completeBlock n s).command.refused = s.command.refused := by
  unfold completeBlock
  split
  · rfl
  · exact refused_settleFrom s n .report _

@[simp] theorem refused_resumeSettling : (resumeSettling n s).command.refused = s.command.refused := by
  unfold resumeSettling
  split
  · rfl
  · exact refused_settleFrom s n _ _

@[simp] theorem refused_leaveHalting : (leaveHalting n s).command.refused = s.command.refused := by
  unfold leaveHalting
  split
  · simp
  · rfl

@[simp] theorem refused_leaveAborting : (leaveAborting n s).command.refused = s.command.refused := by
  unfold leaveAborting
  split
  · simp
  · rfl

theorem refused_meetEnd (d : Transfer) : (meetEnd n d s).command.refused = s.command.refused := by
  unfold meetEnd
  dsimp only
  split
  · split <;> simp
  · exact refused_answerRequest s n .ack

theorem refused_meetInRunning (d : Transfer) (r : LinkRequest) :
    (meetInRunning n d r s).command.refused = s.command.refused := by
  unfold meetInRunning
  dsimp only
  split
  · split <;> rfl
  · exact refused_enterFaulted s n _
  · exact refused_enterFaulted s n _
  · split <;> rfl
  · exact refused_meetEnd s n d
  · exact refused_enterFaulted s n _

theorem refused_meetWhileWaiting (r : LinkRequest) :
    (meetWhileWaiting n r s).command.refused = s.command.refused := by
  cases r with
  | fail => exact refused_enterFaulted s n _
  | offer | ask | endBlock => rfl

@[simp] theorem refused_meetRequest : (meetRequest n s).command.refused = s.command.refused := by
  unfold meetRequest
  dsimp only
  cases (s.channel n).request with
  | none => rfl
  | some r =>
    cases (s.channel n).state with
    | disabled | idle | aborting | faulted => exact refused_turnAway s n
    | fetching | settling _ | holding | halting | halted => exact refused_meetWhileWaiting s n r
    | running =>
      cases (s.channel n).contents with
      | none => exact refused_meetWhileWaiting s n r
      | some x =>
        cases x with
        | linkOnly a => exact refused_meetWhileWaiting s n r
        | transfer d => exact refused_meetInRunning s n d r

@[simp] theorem refused_carryOn : (carryOn n s).command.refused = s.command.refused := by
  simp [carryOn]

/-! ### The end of an event (R106) -/

/-- A WRITE ENTRY or a LOG STOP that ends there leaves REFUSED as it is. -/
@[simp] theorem refused_finishEvent : (finishEvent s).command.refused = s.command.refused := by
  obtain ⟨same | ⟨-, r, ended⟩, -⟩ := finishEvent_command s
  · rw [same]
  · rw [ended]

@[simp] theorem refused_finishChannelEvent :
    (finishChannelEvent n s).command.refused = s.command.refused := by
  simp [finishChannelEvent]

/-! ### Arrival (R50, R51) -/

@[simp] theorem refused_present (r : LinkRequest) : (present n r s).command.refused = s.command.refused := by
  simp [present]

@[simp] theorem refused_arrive (r : LinkRequest) : (arrive n r s).command.refused = s.command.refused := by
  unfold arrive
  split
  · rfl
  · split
    · rfl
    · simp [raiseLines]

@[simp] theorem refused_arriveFail : (arriveFail n s).command.refused = s.command.refused := by
  unfold arriveFail
  split
  · rfl
  · simp [raiseLines]

@[simp] theorem refused_lowerRequestValid :
    (lowerRequestValid n s).command.refused = s.command.refused := by
  unfold lowerRequestValid
  dsimp only
  split
  · split
    · rfl
    · simp
  · rfl

/-! ### Completions (R34, R59, R62, R86, R106, R138) -/

@[simp] theorem refused_acceptDescriptor (words : List Word) :
    (acceptDescriptor n words s).command.refused = s.command.refused := by
  unfold acceptDescriptor
  split
  · exact refused_enterFaulted s n _
  · rfl
  · unfold acceptLinkOnly
    dsimp only
    split <;> simp

theorem refused_descWordArrives (w : Word) :
    (descWordArrives n w s).command.refused = s.command.refused := by
  unfold descWordArrives
  dsimp only
  split
  · simp [dropFetched, keepDescWord]
  · rfl

theorem refused_deliverDescRead (r : BusRead) :
    (deliverDescRead n r s).command.refused = s.command.refused := by
  unfold deliverDescRead
  split
  · split
    · exact refused_descWordArrives s n _
    · exact refused_enterFaulted s n _
  · split
    · rfl
    · exact refused_enterFaulted s n _
  · rfl

theorem refused_deliverDataWrite (r : BusWrite) :
    (deliverDataWrite n r s).command.refused = s.command.refused := by
  unfold deliverDataWrite
  split
  · split
    · rfl
    · exact refused_enterFaulted s n _
  · rfl

theorem refused_deliverDataRead (r : BusRead) :
    (deliverDataRead n r s).command.refused = s.command.refused := by
  unfold deliverDataRead
  split
  · split
    · rfl
    · exact refused_enterFaulted s n _
  · rfl

theorem refused_handBack (d : Delivery) {deliver : State → State}
    (delivered : (deliver s).command.refused = s.command.refused) :
    (handBack n d deliver s).command.refused = s.command.refused := by
  cases d with
  | deliver => rw [handBack, refused_carryOn, delivered]
  | discard => rw [handBack, refused_carryOn]
  | orphan => rw [handBack]

theorem refused_completeDescRead (r : BusRead) :
    (completeDescRead r s).command.refused = s.command.refused := by
  unfold completeDescRead
  split
  · exact (refused_finishEvent _).trans (refused_handBack _ _ _ (refused_deliverDescRead _ _ r))
  · rfl

theorem refused_completeDataWrite (r : BusWrite) :
    (completeDataWrite r s).command.refused = s.command.refused := by
  unfold completeDataWrite
  split
  · rw [refused_finishEvent, refused_handBack _ _ _ (refused_deliverDataWrite _ _ r)]
    split <;> rfl
  · rfl

theorem refused_completeDataRead (r : BusRead) :
    (completeDataRead r s).command.refused = s.command.refused := by
  unfold completeDataRead
  split
  · exact (refused_finishEvent _).trans (refused_handBack _ _ _ (refused_deliverDataRead _ _ r))
  · rfl

/-- A load that ends completes its LOAD MAP, which leaves REFUSED as it is (R87, R88). -/
theorem refused_deliverMapRead (r : BusRead) :
    (deliverMapRead r s).command.refused = s.command.refused := by
  unfold deliverMapRead
  split
  · unfold fillEntry
    dsimp only
    split <;> rfl
  · rfl
  · rfl

theorem refused_logWordDone (u : UnderWay) : (logWordDone u s).command.refused = s.command.refused := by
  unfold logWordDone
  split
  · split
    · unfold finishRingRecord markLogged
      dsimp only
      split <;> rfl
    · unfold finishOverflowRecord
      dsimp only
      split <;> rfl
  · rfl

theorem refused_deliverLogWrite (r : BusWrite) :
    (deliverLogWrite r s).command.refused = s.command.refused := by
  unfold deliverLogWrite
  split
  · exact refused_logWordDone s _
  · rfl
  · rfl

theorem refused_completeMapRead (r : BusRead) :
    (completeMapRead r s).command.refused = s.command.refused := by
  unfold completeMapRead
  split
  · refine (refused_finishEvent _).trans ?_
    split
    · exact refused_deliverMapRead _ r
    · rfl
  · rfl

theorem refused_completeLogWrite (r : BusWrite) :
    (completeLogWrite r s).command.refused = s.command.refused := by
  unfold completeLogWrite
  split
  · refine (refused_finishEvent _).trans ?_
    split
    · exact refused_deliverLogWrite _ r
    · rfl
  · rfl

/-! ### The event queue and the interval timer (R118, R154, R159) -/

theorem refused_popEvent : (popEvent s).command.refused = s.command.refused := by
  unfold popEvent
  split
  · rfl
  · dsimp only
    split
    · rfl
    · exact refused_finishChannelEvent _ _

theorem refused_faultStalled (due : List ChannelNo) :
    ∀ s : State, (faultStalled due s).command.refused = s.command.refused := by
  induction due with
  | nil => exact fun _ => rfl
  | cons n rest ih => exact fun s => (ih _).trans (refused_enterFaulted s n .stallTimeout)

theorem refused_tickEvent :
    (tickEvent (restartPrescaler s)).command.refused = s.command.refused := by
  rw [tickEvent_eq_faultStalled, refused_finishEvent, refused_faultStalled]
  rfl

/-! ### The rows of the arbiter, the loader and the log writer (R85, R91, R100, R137, R144, R148) -/

@[simp] theorem refused_arbitrate : (arbitrate s).command.refused = s.command.refused := by
  rw [(Proceeds.arbitrate s).command]

@[simp] theorem refused_endDrain : (endDrain s).command.refused = s.command.refused := by
  rw [(endDrain_command s).1]

@[simp] theorem refused_endWriteEntry : (endWriteEntry s).command.refused = s.command.refused := by
  rcases endWriteEntry_command s with ⟨same, -⟩ | ⟨-, -, r, ended⟩
  · rw [same]
  · rw [ended]

@[simp] theorem refused_endLogStop : (endLogStop s).command.refused = s.command.refused := by
  rcases endLogStop_command s with ⟨same, -⟩ | ⟨-, -, r, ended⟩
  · rw [same]
  · rw [ended]

@[simp] theorem refused_beginRingRecord : (beginRingRecord s).command.refused = s.command.refused := by
  unfold beginRingRecord
  split <;> rfl

@[simp] theorem refused_beginOverflowRecord :
    (beginOverflowRecord s).command.refused = s.command.refused := by
  unfold beginOverflowRecord
  split <;> rfl

/-! ### The owners of the host commands (R14 to R28, R84 to R94, R147 to R149) -/

theorem refused_continueFrom : (continueFrom n s).command.refused = s.command.refused := by
  have restart : (restartFetch n s).command.refused = s.command.refused := by
    rw [restartFetch_eq]
    exact refused_discardTransaction s n
  unfold continueFrom
  dsimp only
  split
  · rfl
  · exact restart
  · exact (settleSelect_ends s n _).refused
  · exact restart
  · rfl

theorem refused_enterAborting : (enterAborting n s).command.refused = s.command.refused := by
  rw [enterAborting_eq]
  rfl

/-- The owner of a command does not look at REFUSED, which the port has settled before (R163, R164). -/
theorem refused_takeCommand (cmd : HostCommand) (l : Latched) :
    (takeCommand cmd l s).command.refused = s.command.refused := by
  cases cmd with
  | bind | unbind | clearFault | readChannel | readEntry | probe => rfl
  | start | halt => exact refused_finishChannelEvent _ _
  | continueChannel => exact (refused_finishChannelEvent _ _).trans (refused_continueFrom _ _)
  | abort => exact (refused_finishChannelEvent _ _).trans (refused_enterAborting s _)
  | loadMap =>
    refine (refused_finishEvent _).trans ?_
    split <;> rfl
  | writeEntry =>
    show (takeWriteEntry l s).command.refused = _
    unfold takeWriteEntry
    dsimp only
    split <;> rfl
  | logStop =>
    show (takeLogStop l s).command.refused = _
    unfold takeLogStop
    split <;> rfl
  | setLog | logConsumed => exact refused_finishEvent _

end Sys2Proof.Machine
end

section
/-! SUPPORT. The REFUSED latch over every command (O11), and the writes to the window by the row of their register
(O4). -/

namespace Sys2Proof.Machine

-- The proofs are elaborated in turn: side by side their threads outgrow the check's memory limit.
set_option Elab.async false

variable {s t : State}

/-! ### Writes to the window (R171) -/

theorem exec_registerWrite (offset : BitVec 5) (w : Word) (s : State) :
    exec (.registerWrite offset w) s = .next (windowWrite offset w s) := rfl

/-- Each command is found by its own code (R165 stage 1, R177). -/
theorem hostCommandOfCode_hostCommandCode (cmd : HostCommand) :
    hostCommandOfCode (hostCommandCode cmd) = some cmd := by
  cases cmd <;> rfl

/-- A word whose low eight bits are the code of a command presents that command (R163). -/
theorem writeCommand_of_code {cmd : HostCommand} {w : Word} (code : hostCommandCode cmd = w.setWidth 8)
    (s : State) : writeCommand w s = presentCommand cmd (takeCommand cmd) s := by
  have found : hostCommandOfCode (writtenCode w) = some cmd := by
    rw [writtenCode, ← code, hostCommandOfCode_hostCommandCode]
  simp only [writeCommand, found]

/-- The soft-reset trigger, whatever the other bits of the word (R174). -/
theorem writeControl_of_reset {w : Word} (reset : w.getLsbD 31 = true) (s : State) :
    writeControl w s = softReset s :=
  if_pos reset

/-- A register that is read only, and an offset without one, ignore the write (R171). -/
theorem windowWrite_ignored {offset : BitVec 5} (other : offset ∉ [1, 2, 4, 5, 6, 7, 15, 19]) (w : Word)
    (s : State) : windowWrite offset w s = s := by
  have apart : offset.toNat ∉ [1, 2, 4, 5, 6, 7, 15, 19] := by
    revert offset
    decide
  unfold windowWrite
  split
  iterate 8
    next at_register => simp [at_register] at apart
  rfl

/-- Settles O4: each offset by the register that stands there. -/
theorem windowWrites : Obligations.WindowWrites := by
  intro s offset w
  simp only [exec_registerWrite]
  refine ⟨?reset, ?control, ?status, ?command, ?unknown, ?operandA, ?operandB, ?operandC, ?settings, ?period,
    fun other => congrArg _ (windowWrite_ignored other w s)⟩ <;> rintro rfl
  case reset => exact fun bit => congrArg Host.Outcome.next (writeControl_of_reset bit s)
  case control => exact fun _ => exec_controlRows w s
  case command =>
    intro cmd code
    rw [exec_commandInstr, ← writeCommand_of_code code]
    rfl
  case unknown => exact fun _ => rfl
  case status | operandA | operandB | operandC | settings | period => rfl

/-! ### What a write to COMMAND does to REFUSED (R163, R164) -/

/-- A write to COMMAND is the row of a host command, or a word written there. -/
theorem exec_of_writesCommand {c : Instr} (writes : writesCommand c = true) (s : State) :
    (∃ cmd, c = commandInstr cmd) ∨ ∃ w, exec c s = .next (writeCommand w s) := by
  cases c <;> try cases writes
  case bind => exact .inl ⟨.bind, rfl⟩
  case unbind => exact .inl ⟨.unbind, rfl⟩
  case start => exact .inl ⟨.start, rfl⟩
  case halt => exact .inl ⟨.halt, rfl⟩
  case continueChannel => exact .inl ⟨.continueChannel, rfl⟩
  case abort => exact .inl ⟨.abort, rfl⟩
  case clearFault => exact .inl ⟨.clearFault, rfl⟩
  case readChannel => exact .inl ⟨.readChannel, rfl⟩
  case loadMap => exact .inl ⟨.loadMap, rfl⟩
  case writeEntry => exact .inl ⟨.writeEntry, rfl⟩
  case readEntry => exact .inl ⟨.readEntry, rfl⟩
  case probe => exact .inl ⟨.probe, rfl⟩
  case setLog => exact .inl ⟨.setLog, rfl⟩
  case logStop => exact .inl ⟨.logStop, rfl⟩
  case logConsumed => exact .inl ⟨.logConsumed, rfl⟩
  case unknownCommand w => exact .inr ⟨w, rfl⟩
  case registerWrite offset w =>
    obtain rfl : offset = 4 := by simpa [writesCommand] using writes
    exact .inr ⟨w, rfl⟩

/-- A code that is no command's, while the port is BUSY, only sets REFUSED (R164). -/
theorem presentUnknown_busy (busy : s.command.inProgress ≠ none) (code : BitVec 8) :
    presentUnknown code s = { s with command := { s.command with refused := true } } :=
  if_pos (Option.isSome_iff_ne_none.mpr busy)

/-- A write to COMMAND while the port is BUSY only sets REFUSED, whatever the word (R164). -/
theorem writeCommand_busy (busy : s.command.inProgress ≠ none) (w : Word) :
    writeCommand w s = { s with command := { s.command with refused := true } } := by
  unfold writeCommand
  split
  · exact presentCommand_busy s _ _ busy
  · exact presentUnknown_busy busy _

/-- A command that the port accepts clears REFUSED, whether its checks refuse it or it is taken (R163). -/
theorem refused_presentCommand_idle (idle : PortIdle s) (cmd : HostCommand) :
    (presentCommand cmd (takeCommand cmd) s).command.refused = false := by
  cases check : commandCheck (latch cmd s) s with
  | none =>
    rw [presentCommand_taken s cmd _ idle check, refused_takeCommand]
    rfl
  | some r =>
    rw [presentCommand_refused s cmd _ idle r check]
    rfl

theorem refused_presentUnknown_idle (idle : PortIdle s) (code : BitVec 8) :
    (presentUnknown code s).command.refused = false := by
  have free : ¬ s.command.inProgress.isSome = true := by rw [idle]; exact Bool.false_ne_true
  rw [presentUnknown, if_neg free]
  rfl

theorem refused_writeCommand_idle (idle : PortIdle s) (w : Word) :
    (writeCommand w s).command.refused = false := by
  unfold writeCommand
  split
  · exact refused_presentCommand_idle idle _
  · exact refused_presentUnknown_idle idle _

/-- While the port is BUSY any write to COMMAND only sets REFUSED (R164). -/
theorem exec_busy {c : Instr} (writes : writesCommand c = true) (busy : s.command.inProgress ≠ none) :
    exec c s = .next { s with command := { s.command with refused := true } } := by
  rcases exec_of_writesCommand writes s with ⟨cmd, rfl⟩ | ⟨w, written⟩
  · rw [exec_commandInstr, presentCommand_busy s cmd _ busy]
  · rw [written, writeCommand_busy busy]

/-- While the port is IDLE any write to COMMAND clears REFUSED (R163). -/
theorem refused_exec_idle {c : Instr} (writes : writesCommand c = true) (idle : PortIdle s)
    (run : exec c s = .next t) : t.command.refused = false := by
  rcases exec_of_writesCommand writes s with ⟨cmd, rfl⟩ | ⟨w, written⟩
  · rw [exec_commandInstr] at run
    injection run with run
    rw [← run, refused_presentCommand_idle idle]
  · rw [written] at run
    injection run with run
    rw [← run, refused_writeCommand_idle idle]

/-! ### What a reset does to REFUSED (R2, R169, R174) -/

theorem refused_exec_reset {c : Instr} (reset : isReset c = true) (run : exec c s = .next t) :
    t.command.refused = false := by
  cases c <;> try cases reset
  all_goals injection run with run; subst run
  case powerOnReset | softReset w => rfl
  case masterEnable w | interruptEnable w => rw [writeControl_of_reset reset]; rfl
  case registerWrite offset w =>
    obtain ⟨rfl, bit⟩ : offset = 1 ∧ w.getLsbD 31 = true := by simpa [isReset] using reset
    show (writeControl w s).command.refused = false
    rw [writeControl_of_reset bit]
    rfl

/-! ### What every other command leaves of REFUSED -/

/-- A write to CONTROL without the soft reset (R173). -/
theorem refused_writeControl {w : Word} (noReset : w.getLsbD 31 = false) (s : State) :
    (writeControl w s).command.refused = s.command.refused := by
  rw [writeControl_of_noReset noReset, refused_finishEvent]

theorem refused_writeTimerPeriod (w : Word) (s : State) :
    (writeTimerPeriod w s).command.refused = s.command.refused := by
  unfold writeTimerPeriod
  split <;> rfl

/-- A write to the window that is neither a reset nor a write to COMMAND. -/
theorem refused_windowWrite {offset : BitVec 5} {w : Word}
    (noReset : isReset (.registerWrite offset w) = false)
    (noWrite : writesCommand (.registerWrite offset w) = false) (s : State) :
    (windowWrite offset w s).command.refused = s.command.refused := by
  unfold windowWrite
  split
  · next at_control =>
    obtain rfl : offset = 1 := BitVec.eq_of_toNat_eq at_control
    exact refused_writeControl noReset s
  · rfl
  · next at_command =>
    obtain rfl : offset = 4 := BitVec.eq_of_toNat_eq at_command
    cases noWrite
  · rfl
  · rfl
  · rfl
  · rfl
  · exact refused_writeTimerPeriod w s
  · rfl

/-- A row that acts where its condition holds, and changes nothing elsewhere. -/
theorem refused_ite {p : Prop} [Decidable p] (acts : t.command.refused = s.command.refused) :
    (if p then t else s).command.refused = s.command.refused := by
  split
  · exact acts
  · rfl

/-- A command that is neither a reset nor a write to COMMAND leaves REFUSED as it is (R164). -/
theorem refused_exec_other {c : Instr} (noReset : isReset c = false) (noWrite : writesCommand c = false)
    (run : exec c s = .next t) : t.command.refused = s.command.refused := by
  cases c <;> try cases noReset
  all_goals try cases noWrite
  all_goals injection run with run; subst run
  case offer n w | ask n | endBlock n | fail n | requestValidFall n => simp
  case descReadComplete r => exact refused_completeDescRead s r
  case dataWriteComplete r => exact refused_completeDataWrite s r
  case dataReadComplete r => exact refused_completeDataRead s r
  case mapReadComplete r => exact refused_completeMapRead s r
  case logWriteComplete r => exact refused_completeLogWrite s r
  case grant | stallTimeout n => exact refused_ite (by simp)
  case tick => exact refused_tickEvent s
  case ageCondition => exact refused_ite rfl
  case masterEnable w | interruptEnable w => exact refused_writeControl noReset s
  case interruptStatusClear w => rfl
  case pop => exact refused_popEvent s
  case eventSettingsWrite w => rfl
  case timerPeriodWrite w => exact refused_writeTimerPeriod w s
  case registerWrite offset w => exact refused_windowWrite noReset noWrite s
  case waitingRequestMet n | waitingPost n | blockComplete n | leaveHalting n | leaveAborting n =>
    exact refused_ite (by simp)
  case drainEnd | writeEntryReplace | logRecordBegin | overflowRecordBegin | logStopComplete =>
    exact refused_ite (by simp)

/-- Settles O11: a write to COMMAND by the port's status, a reset, and the frame of every other command. -/
theorem busyPortDiscards : Obligations.BusyPortDiscards := by
  intro s
  refine ⟨fun busy => ⟨fun cmd => exec_busy (by cases cmd <;> rfl) busy, fun w => exec_busy rfl busy⟩,
    fun c t run set => ?_⟩
  by_cases reset : isReset c = true
  · simp [refused_exec_reset reset run, reset]
  by_cases writes : writesCommand c = true
  · by_cases idle : PortIdle s
    · simp [refused_exec_idle writes idle run, idle, writes]
    · rw [exec_busy writes idle] at run
      injection run with run
      simp [← run, reset, idle]
  · have kept := refused_exec_other (eq_false_of_ne_true reset) (eq_false_of_ne_true writes) run
    simp [kept, set, reset, writes]

end Sys2Proof.Machine
end

section
/-! SUPPORT. The step with a command at the front of the queue (O1), beside `step_idle`. -/

namespace Sys2Proof.Machine

/-- The queue is looked at once, and only its front decides what the step is (log entry 1). -/
theorem step_of_front {s : State} {c : Instr} {rest : List Instr} (front : s.pending = c :: rest) :
    step s = exec c { s with pending := rest } := by
  simp only [step, front]

/-- Settles O1: the command is at the front of the queue it was put on, and taking it leaves every other field. -/
theorem stepRunsFrontCommand : Obligations.StepRunsFrontCommand :=
  fun _ _ _ => step_of_front rfl

end Sys2Proof.Machine
end

section
/-! SUPPORT. A standing request met again (O32), in the equations of the states that answer it, and a block that
completes (O43). -/

namespace Sys2Proof.Machine

-- The proofs are elaborated in turn: side by side their threads outgrow the check's memory limit.
set_option Elab.async false

variable {s : State} {n : ChannelNo} {d : Transfer}

/-! ### A block that completes (R69) -/

/-- The condition of R69, in the words of the claim. -/
theorem completionHolds_iff (c : Channel) (d : Transfer) (inFlight : Bool) :
    completionHolds c d inFlight = true ↔ inFlight = false ∧
      (d.direction = .inbound ∧ (c.memoryCount = d.count ∨ c.short = true ∧ c.staging = []) ∨
        d.direction = .outbound ∧ (c.exchanged = d.count ∨ c.short = true)) := by
  cases dir : d.direction <;> simp [completionHolds, dir]

theorem completedBlock_eq_some (running : (s.channel n).state = .running)
    (held : (s.channel n).contents = some (.transfer d))
    (complete : completionHolds (s.channel n) d (s.channelInFlight n) = true) : completedBlock s n = some d := by
  rw [completedBlock_running s n d running held, if_pos complete]

theorem completedBlock_eq_none (running : (s.channel n).state = .running)
    (held : (s.channel n).contents = some (.transfer d)) :
    completedBlock s n = none ↔ ¬ completionHolds (s.channel n) d (s.channelInFlight n) = true := by
  rw [completedBlock_running s n d running held]
  simp

theorem exec_blockComplete_of_none (none : completedBlock s n = none) : exec (.blockComplete n) s = .next s :=
  congrArg Host.Outcome.next (if_neg (by simp [none]))

/-- Settles O43: the settling sequence where the condition of R69 holds, and nothing where it does not. -/
theorem blockCompletes : Obligations.BlockCompletes := by
  intro s n
  refine ⟨fun d running held => ⟨fun idle moved => ?_, fun missing => ?_⟩, fun other => ?_⟩
  · have due := completedBlock_eq_some running held ((completionHolds_iff ..).mpr ⟨idle, moved⟩)
    rw [exec_blockComplete (by rw [due]; rfl), completeBlock, due]
  · refine exec_blockComplete_of_none ((completedBlock_eq_none running held).mpr fun complete => ?_)
    obtain ⟨idle, moved⟩ := (completionHolds_iff ..).mp complete
    rcases missing with flying | ⟨dir, count, words⟩ | ⟨dir, count, full⟩
    · rw [idle] at flying
      cases flying
    · rcases words with full | staged <;> simp [*] at moved
    · simp [*] at moved
  · refine exec_blockComplete_of_none ?_
    cases due : completedBlock s n with
    | none => rfl
    | some d =>
      obtain ⟨running, held⟩ := completedBlock_some s n due
      exact absurd held (other.elim (absurd running) fun none => none d)

/-! ### A request met, by the state of its channel -/

/-- A FAIL that stands faults a working channel (R68). -/
theorem meetRequest_fail (request : (s.channel n).request = some .fail)
    (working : answersAtOnce (s.channel n).state = false) : meetRequest n s = enterFaulted n .periphFail s := by
  unfold meetRequest
  dsimp only
  rw [request]
  cases state : (s.channel n).state with
  | disabled | idle | aborting | faulted => rw [state] at working; cases working
  | fetching | settling _ | holding | halting | halted => rfl
  | running =>
    rcases (s.channel n).contents with _ | (d | a)
    · rfl
    · rfl
    · rfl

theorem meetRequest_running {r : LinkRequest} (request : (s.channel n).request = some r)
    (running : (s.channel n).state = .running) (held : (s.channel n).contents = some (.transfer d)) :
    meetRequest n s = meetInRunning n d r s := by
  unfold meetRequest
  simp only [request, running, held]

/-- A request that has no answer in its state is not due (R53, R54, R57, R63). -/
theorem requestDue_of_waits {c : Channel} {r : LinkRequest} (request : c.request = some r) (waits : Waits c r) :
    requestDue c = false := by
  obtain ⟨other, waits⟩ := waits
  have beside : (c.state = .running → ∀ d, c.contents ≠ some (.transfer d)) → answersAtOnce c.state = false →
      requestDue c = false := fun none state => by
    rw [requestDue_waiting request none, state, Bool.false_or]
    simpa using other
  cases state : c.state with
  | disabled | idle | aborting | faulted => simp [state] at waits
  | fetching | settling _ | holding | halting | halted => exact beside (by simp [state]) (by rw [state]; rfl)
  | running =>
    rcases held : c.contents with _ | (d | a)
    · simp [state, held] at waits
    · cases dir : d.direction <;> cases r <;> simp only [state, held, dir] at waits
      · rcases waits with all | short | full
        · simp [requestDue, request, state, held, dir, BitVec.not_lt.mpr all]
        · simp [requestDue, request, state, held, dir, short]
        · simp [requestDue, request, state, held, dir, full]
      · simp [requestDue, request, state, held, dir, waits]
    · simp [state, held] at waits

/-! ### The answers of a RUNNING channel (R57, R63 to R67) -/

/-- The record after an answer in RUNNING has changed it further. -/
theorem answerRequest_putChannel (a : Answer) (c : Channel) :
    (answerRequest n a s).putChannel n c = answeredWaiting s n a c := by
  simp [answerRequest_eq, answeredWaiting]

theorem channel_answerRequest (a : Answer) :
    (answerRequest n a s).channel n = { s.channel n with request := none } := by
  simp [answerRequest_eq]

theorem meetInRunning_take (w : Word) (dir : d.direction = .inbound) (take : canTake (s.channel n) d = true) :
    meetInRunning n d (.offer w) s = answeredWaiting s n .take { s.channel n with
      request := none
      staging := (s.channel n).staging ++ [w]
      exchanged := (s.channel n).exchanged + 1
      stallCounter := 0 } := by
  simp only [meetInRunning, dir, take, if_true, takeWord, answerRequest_putChannel, channel_answerRequest]

theorem meetInRunning_give {w : Word} {rest : List Word} (dir : d.direction = .outbound)
    (staged : (s.channel n).staging = w :: rest) :
    meetInRunning n d .ask s = answeredWaiting s n (.give w) { s.channel n with
      request := none
      staging := rest
      exchanged := (s.channel n).exchanged + 1
      stallCounter := 0 } := by
  simp only [meetInRunning, dir, staged, giveWord, answerRequest_putChannel, channel_answerRequest]

theorem meetInRunning_wrong {r : LinkRequest}
    (wrong : (∃ w, r = .offer w) ∧ d.direction = .outbound ∨ r = .ask ∧ d.direction = .inbound) :
    meetInRunning n d r s = enterFaulted n .linkProtocol s := by
  rcases wrong with ⟨⟨w, rfl⟩, dir⟩ | ⟨rfl, dir⟩ <;> simp only [meetInRunning, dir]

/-- An END that finds nothing missing is only acknowledged (R65). -/
theorem meetEnd_of_done (done : endsShort (s.channel n) d = false) :
    meetEnd n d s = answeredWaiting s n .ack { s.channel n with request := none } := by
  have same : endsShort { s.channel n with request := none } d = false := done
  simp only [meetEnd, channel_answerRequest, same, Bool.false_eq_true, if_false]
  rfl

/-- An END that ends its block short (R66, R67). -/
theorem meetEnd_of_missing (missing : endsShort (s.channel n) d = true) :
    meetEnd n d s = { answeredWaiting s n .ack { s.channel n with
        request := none
        short := true
        staging := if d.direction = .inbound then (s.channel n).staging else [] } with
      port := if d.direction = .inbound then s.port else abandonedPort n s.port } := by
  have same : endsShort { s.channel n with request := none } d = true := missing
  cases dir : d.direction with
  | inbound =>
    simp only [meetEnd, same, if_true, dir, answerRequest_putChannel, channel_answerRequest]
    rfl
  | outbound =>
    simp only [meetEnd, same, if_true, dir, answerRequest_putChannel, channel_answerRequest,
      discardTransaction_eq]
    rfl

theorem endsShort_iff (c : Channel) (d : Transfer) :
    endsShort c d = true ↔ c.exchanged < d.count ∧ c.short = false := by
  simp [endsShort]

/-! ### What follows an answer in RUNNING -/

theorem AtRest.of_running (running : (s.channel n).state = .running) (block : completedBlock s n = none) :
    AtRest s n where
  settling := resumedStep_of_state s n (by simp [running])
  halting := leaveHaltingDue_of_state s n (by simp [running])
  aborting := leaveAbortingDue_of_state s n (by simp [running])
  block := block

section Answered

variable {t : State} (met : meetRequest n s = t) (request : (s.channel n).request ≠ none)
include met request

theorem exec_waitingRequestMet_of_met : exec (.waitingRequestMet n) s = .next (finishChannelEvent n t) := by
  rw [exec_waitingRequestMet (Option.isSome_iff_ne_none.mpr request), met]

/-- The block goes on after the answer. -/
theorem exec_waitingRequestMet_of_open (rest : AtRest t n) (answered : (t.channel n).request = none) :
    exec (.waitingRequestMet n) s = .next (finishEvent t) := by
  rw [exec_waitingRequestMet_of_met met request, rest.finishChannelEvent_of_none answered]

/-- The answer completes the block (R69). -/
theorem exec_waitingRequestMet_of_complete (complete : completedBlock t n ≠ none) :
    exec (.waitingRequestMet n) s = exec (.blockComplete n) t := by
  rw [exec_waitingRequestMet_of_met met request, finishChannelEvent_of_completedBlock complete]

end Answered

@[simp] theorem channel_answeredWaiting (a : Answer) (c : Channel) : (answeredWaiting s n a c).channel n = c := by
  simp [answeredWaiting]

@[simp] theorem channelInFlight_answeredWaiting (a : Answer) (c : Channel) (m : ChannelNo) :
    (answeredWaiting s n a c).channelInFlight m = s.channelInFlight m := rfl

end Sys2Proof.Machine
end

section
/-! SUPPORT. What a waiting request comes to (O32), state by state. -/

namespace Sys2Proof.Machine

-- The proofs are elaborated in turn: side by side their threads outgrow the check's memory limit.
set_option Elab.async false

variable {s : State} {n : ChannelNo} {d : Transfer}

/-! ### Outside RUNNING (R53, R54, R68) -/

/-- A state that answers every request turns the standing one away (R53, R54). -/
theorem exec_waitingRequestMet_answering {r : LinkRequest} (request : (s.channel n).request = some r)
    (answers : answersAtOnce (s.channel n).state = true) (aborting : leaveAbortingDue s n = false) :
    exec (.waitingRequestMet n) s = .next (finishEvent (answeredWaiting s n (turnAwayAnswer r)
      { s.channel n with request := none })) := by
  have turned : turnAway n s = answeredWaiting s n (turnAwayAnswer r) { s.channel n with request := none } := by
    simp only [turnAway, request]
    rfl
  have met : meetRequest n s = answeredWaiting s n (turnAwayAnswer r) { s.channel n with request := none } :=
    (meetRequest_of_answering answers).trans turned
  refine exec_waitingRequestMet_of_open met (by simp [request]) (.of_answering (by simpa using answers) ?_)
    (by simp)
  simpa [leaveAbortingDue] using aborting

theorem exec_waitingRequestMet_fail (request : (s.channel n).request = some .fail)
    (working : answersAtOnce (s.channel n).state = false) :
    exec (.waitingRequestMet n) s = .next (finishEvent (enterFaulted n .periphFail s)) := by
  rw [exec_waitingRequestMet_of_met (meetRequest_fail request working) (by simp [request]),
    finishChannelEvent_enterFaulted]

/-- A request without an answer in its state goes on waiting. -/
theorem AtRest.exec_waitingRequestMet (rest : AtRest s n) {r : LinkRequest}
    (request : (s.channel n).request = some r) (waits : Waits (s.channel n) r) :
    exec (.waitingRequestMet n) s = .next (finishEvent s) := by
  have due := requestDue_of_waits request waits
  rw [exec_waitingRequestMet_of_met (meetRequest_of_not_due s n due) (by simp [request]),
    rest.finishChannelEvent_of_not_due due]

/-! ### In RUNNING (R57, R63 to R67, R69) -/

/-- The channel's own transaction, abandoned or not, is in flight as before (R96). -/
theorem channelInFlight_answered (a : Answer) (c : Channel) {p : Port}
    (port : p = s.port ∨ p = abandonedPort n s.port) :
    State.channelInFlight { answeredWaiting s n a c with port := p } n = s.channelInFlight n := by
  rcases port with rfl | rfl
  · rfl
  · exact channelInFlight_of_abandonedPort s n n rfl

section Answer

variable {c : Channel} {a : Answer} {p : Port} (met : meetRequest n s = { answeredWaiting s n a c with port := p })
  (request : (s.channel n).request ≠ none) (running : c.state = .running)
  (held : c.contents = some (.transfer d)) (port : p = s.port ∨ p = abandonedPort n s.port)
include met request running held port

/-- An answer in RUNNING that leaves words to move. -/
theorem exec_waitingRequestMet_goes (answered : c.request = none)
    (more : ¬ completionHolds c d (s.channelInFlight n) = true) :
    exec (.waitingRequestMet n) s = .next (finishEvent { answeredWaiting s n a c with port := p }) := by
  have record : State.channel { answeredWaiting s n a c with port := p } n = c := channel_answeredWaiting a c
  refine exec_waitingRequestMet_of_open met request (.of_running (by rw [record, running]) ?_)
    (by rw [record, answered])
  rw [completedBlock_eq_none (by rw [record, running]) (by rw [record, held]), record,
    channelInFlight_answered a c port]
  exact more

/-- An answer in RUNNING that completes the block. -/
theorem exec_waitingRequestMet_completes (all : completionHolds c d (s.channelInFlight n) = true) :
    exec (.waitingRequestMet n) s = exec (.blockComplete n) { answeredWaiting s n a c with port := p } := by
  have record : State.channel { answeredWaiting s n a c with port := p } n = c := channel_answeredWaiting a c
  refine exec_waitingRequestMet_of_complete met request ?_
  rw [completedBlock_eq_some (d := d) (by rw [record, running]) (by rw [record, held])]
  · simp
  · rw [record, channelInFlight_answered a c port]
    exact all

end Answer

theorem exec_waitingRequestMet_wrong (running : (s.channel n).state = .running)
    (held : (s.channel n).contents = some (.transfer d)) {r : LinkRequest}
    (request : (s.channel n).request = some r)
    (wrong : (∃ w, r = .offer w) ∧ d.direction = .outbound ∨ r = .ask ∧ d.direction = .inbound) :
    exec (.waitingRequestMet n) s = .next (finishEvent (enterFaulted n .linkProtocol s)) := by
  have met := (meetRequest_running request running held).trans (meetInRunning_wrong wrong)
  rw [exec_waitingRequestMet_of_met met (by simp [request]), finishChannelEvent_enterFaulted]

section Block

variable (block : completedBlock s n = none) (running : (s.channel n).state = .running)
  (held : (s.channel n).contents = some (.transfer d))
include block running held

/-- A block that is not complete has a transaction in flight, or words to move (R69). -/
theorem incomplete_of_block :
    ¬ (s.channelInFlight n = false ∧
      (d.direction = .inbound ∧ ((s.channel n).memoryCount = d.count ∨
          (s.channel n).short = true ∧ (s.channel n).staging = []) ∨
        d.direction = .outbound ∧ ((s.channel n).exchanged = d.count ∨ (s.channel n).short = true))) := by
  rw [← completionHolds_iff]
  exact (completedBlock_eq_none running held).mp block

/-- A word taken leaves the block to be written (R57). -/
theorem exec_waitingRequestMet_take {w : Word} (request : (s.channel n).request = some (.offer w))
    (dir : d.direction = .inbound) (below : (s.channel n).exchanged < d.count)
    (full : (s.channel n).short = false) (room : (s.channel n).staging.length < 4) :
    exec (.waitingRequestMet n) s = .next (finishEvent (answeredWaiting s n .take { s.channel n with
      request := none
      staging := (s.channel n).staging ++ [w]
      exchanged := (s.channel n).exchanged + 1
      stallCounter := 0 })) := by
  have take : canTake (s.channel n) d = true := by simp [canTake, below, full, room, Config.stagingDepth]
  refine exec_waitingRequestMet_goes (p := s.port) ((meetRequest_running request running held).trans
    (meetInRunning_take w dir take)) (by simp [request]) running held (.inl rfl) rfl fun all => ?_
  have missing := incomplete_of_block block running held
  rw [completionHolds_iff] at all
  simp [dir, full] at all missing
  exact missing all.1 all.2

section Give

variable {w : Word} {rest : List Word} (request : (s.channel n).request = some .ask) (dir : d.direction = .outbound)
  (staged : (s.channel n).staging = w :: rest)
include request dir staged

/-- A word given that leaves words to give (R63). -/
theorem exec_waitingRequestMet_give
    (more : (s.channel n).exchanged + 1 ≠ d.count ∨ s.channelInFlight n = true) :
    exec (.waitingRequestMet n) s = .next (finishEvent (answeredWaiting s n (.give w) { s.channel n with
      request := none
      staging := rest
      exchanged := (s.channel n).exchanged + 1
      stallCounter := 0 })) := by
  refine exec_waitingRequestMet_goes (p := s.port) ((meetRequest_running request running held).trans
    (meetInRunning_give dir staged)) (by simp [request]) running held (.inl rfl) rfl fun all => ?_
  have missing := incomplete_of_block block running held
  rw [completionHolds_iff] at all
  simp [dir] at all missing
  obtain ⟨idle, moved⟩ := all
  rcases more with more | flying
  · exact more (moved.resolve_right (by simp [(missing idle).2]))
  · rw [idle] at flying
    cases flying

omit block in
/-- The word given is the last of the block (R63, R69). -/
theorem exec_waitingRequestMet_give_last (last : (s.channel n).exchanged + 1 = d.count)
    (idle : s.channelInFlight n = false) :
    exec (.waitingRequestMet n) s = exec (.blockComplete n) (answeredWaiting s n (.give w) { s.channel n with
      request := none
      staging := rest
      exchanged := (s.channel n).exchanged + 1
      stallCounter := 0 }) :=
  exec_waitingRequestMet_completes (p := s.port) ((meetRequest_running request running held).trans
    (meetInRunning_give dir staged)) (by simp [request]) running held (.inl rfl)
    ((completionHolds_iff ..).mpr ⟨idle, .inr ⟨dir, .inl last⟩⟩)

end Give

section End

variable (request : (s.channel n).request = some .endBlock)
include request

/-- An END in a block that is not cut short by it (R65). -/
theorem exec_waitingRequestMet_end
    (done : d.count ≤ (s.channel n).exchanged ∨ (s.channel n).short = true) :
    exec (.waitingRequestMet n) s =
      .next (finishEvent (answeredWaiting s n .ack { s.channel n with request := none })) := by
  have kept : endsShort (s.channel n) d = false := by
    rw [Bool.eq_false_iff]
    intro missing
    obtain ⟨below, full⟩ := (endsShort_iff ..).mp missing
    rcases done with all | short
    · exact absurd below (BitVec.not_lt.mpr all)
    · rw [full] at short
      cases short
  exact exec_waitingRequestMet_goes (p := s.port) ((meetRequest_running request running held).trans
    (meetEnd_of_done kept)) (by simp [request]) running held (.inl rfl) rfl
    ((completedBlock_eq_none running held).mp block)

/-- An END that ends its block short (R66, R67, R69). -/
theorem exec_waitingRequestMet_short (below : (s.channel n).exchanged < d.count)
    (full : (s.channel n).short = false) {ended : State}
    (eq : ended = { answeredWaiting s n .ack { s.channel n with
        request := none
        short := true
        staging := if d.direction = .inbound then (s.channel n).staging else [] } with
      port := if d.direction = .inbound then s.port else abandonedPort n s.port }) :
    (s.channelInFlight n = true ∨ d.direction = .inbound ∧ (s.channel n).staging ≠ [] →
      exec (.waitingRequestMet n) s = .next (finishEvent ended)) ∧
    (s.channelInFlight n = false → d.direction = .outbound ∨ (s.channel n).staging = [] →
      exec (.waitingRequestMet n) s = exec (.blockComplete n) ended) := by
  have met : meetRequest n s = _ := (meetRequest_running request running held).trans
    (meetEnd_of_missing ((endsShort_iff ..).mpr ⟨below, full⟩))
  have port : (if d.direction = .inbound then s.port else abandonedPort n s.port) = s.port ∨
      (if d.direction = .inbound then s.port else abandonedPort n s.port) = abandonedPort n s.port :=
    (ite_eq_or_eq ..)
  rw [eq]
  refine ⟨fun more => exec_waitingRequestMet_goes met (by simp [request]) running held port rfl fun all => ?_,
    fun idle moved => exec_waitingRequestMet_completes met (by simp [request]) running held port
      ((completionHolds_iff ..).mpr ⟨idle, ?_⟩)⟩
  · have missing := incomplete_of_block block running held
    obtain ⟨idle, moved⟩ := (completionHolds_iff ..).mp all
    rcases more with flying | ⟨dir, staged⟩
    · rw [idle] at flying
      cases flying
    · simp [dir, staged] at moved
      exact missing ⟨idle, .inl ⟨dir, .inl moved⟩⟩
  · cases dir : d.direction with
    | inbound => exact .inl ⟨rfl, .inr ⟨rfl, by simpa [dir] using moved⟩⟩
    | outbound => exact .inr ⟨rfl, .inr rfl⟩

end End

end Block

/-- Settles O32: each answer, by the state of the channel, and whether it completes the block. -/
theorem waitingRequestAnswered : Obligations.WaitingRequestAnswered := by
  intro s n
  refine ⟨fun none => ?_, fun r request settling halting aborting block => ⟨fun state => ?_, fun failed state => ?_,
    fun waits => ?_⟩, fun d block running held => ⟨?_, ?_, fun wrong => ?_, fun request => ⟨?_, ?_⟩⟩⟩
  · exact congrArg Host.Outcome.next (if_neg (by simp [none]))
  · have answers : answersAtOnce (s.channel n).state = true := by
      rcases state with e | e | e | e <;> rw [e] <;> rfl
    refine (exec_waitingRequestMet_answering request answers aborting).trans ?_
    cases r with
    | offer | ask | endBlock | fail => rfl
  · refine exec_waitingRequestMet_fail (failed ▸ request) ?_
    rcases state with e | e | ⟨_, e⟩ | e | e | e <;> rw [e] <;> rfl
  · exact AtRest.exec_waitingRequestMet ⟨settling, halting, aborting, block⟩ request waits
  · exact fun w request => exec_waitingRequestMet_take block running held request
  · rintro w rest request dir staged given rfl
    exact ⟨exec_waitingRequestMet_give block running held request dir staged,
      exec_waitingRequestMet_give_last running held request dir staged⟩
  · obtain ⟨r, request, wrong⟩ : ∃ r, (s.channel n).request = some r ∧
        ((∃ w, r = .offer w) ∧ d.direction = .outbound ∨ r = .ask ∧ d.direction = .inbound) := by
      rcases wrong with ⟨⟨w, request⟩, dir⟩ | ⟨request, dir⟩
      · exact ⟨_, request, .inl ⟨⟨w, rfl⟩, dir⟩⟩
      · exact ⟨_, request, .inr ⟨rfl, dir⟩⟩
    refine ⟨exec_waitingRequestMet_wrong running held request wrong, ?_⟩
    rw [enterFaulted_eq]
    refine (State.slot_putSlot_self ..).trans ?_
    rcases wrong with ⟨⟨w, rfl⟩, -⟩ | ⟨rfl, -⟩ <;> simp only [request, turnedAwaySlot]
  · exact exec_waitingRequestMet_end block running held request
  · exact fun below full ended eq => exec_waitingRequestMet_short block running held request below full eq

end Sys2Proof.Machine
end

section
/-! SUPPORT. Requests that arrive (O26 to O30): a request that has arrived is one met again on the same event. The slot
outside a free conversation (O31). -/

namespace Sys2Proof.Machine

-- The proofs are elaborated in turn: side by side their threads outgrow the check's memory limit.
set_option Elab.async false

variable {s : State} {n : ChannelNo} {d : Transfer} {r : LinkRequest}

/-! ### A request that has arrived (R50) -/

/-- The part where `r` has arrived on slot `n` and stands there. -/
def arrived (n : ChannelNo) (r : LinkRequest) (s : State) : State :=
  (s.putChannel n { s.channel n with request := some r }).putSlot n { s.slot n with lines := some r }

@[simp] theorem channel_arrived : (arrived n r s).channel n = { s.channel n with request := some r } := by
  simp [arrived]

@[simp] theorem channelInFlight_arrived (m : ChannelNo) :
    (arrived n r s).channelInFlight m = s.channelInFlight m := rfl

theorem present_raiseLines : present n r (raiseLines n r s) = carryOn n (arrived n r s) := rfl

theorem NothingDue.atRest_arrived (quiet : NothingDue s) : AtRest (arrived n r s) n where
  settling := by simpa [resumedStep] using quiet.settling n
  halting := by simpa [leaveHaltingDue] using quiet.halting n
  aborting := by simpa [leaveAbortingDue] using quiet.aborting n
  block := by
    have block := quiet.block n
    unfold completedBlock at block ⊢
    rw [channel_arrived, channelInFlight_arrived]
    exact block

/-- Whether or not its answer is due, meeting the request comes first in what is left of the event. -/
theorem AtRest.exec_meet (rest : AtRest s n) (request : (s.channel n).request ≠ none) :
    .next (finishChannelEvent n s) = exec (.waitingRequestMet n) s := by
  cases due : requestDue (s.channel n) with
  | true => exact rest.finishChannelEvent_of_due due
  | false => rw [exec_waitingRequestMet_of_met (meetRequest_of_not_due s n due) request]

/-- A request on a free slot arrives and is met (R50, R52). -/
theorem exec_requestInstr_met (quiet : NothingDue s) (free : FreeSlot s n) (r : LinkRequest) :
    exec (requestInstr n r) s = exec (.waitingRequestMet n) (arrived n r s) := by
  rw [exec_requestInstr free, present_raiseLines]
  exact quiet.atRest_arrived.exec_meet (by simp)

/-- What stood on a slot that a FAIL reaches is withdrawn (R51). -/
theorem exec_fail_met (quiet : NothingDue s) (down : (s.slot n).answerValid = false) :
    exec (.fail n) s = exec (.waitingRequestMet n) (arrived n .fail s) := by
  have arrives : arriveFail n s = present n .fail (raiseLines n .fail s) := by
    simp only [arriveFail, down, Bool.false_eq_true, if_false]
  have taken : exec (.fail n) s = .next (finishEvent (arriveFail n s)) := rfl
  rw [taken, arrives, present_raiseLines]
  exact quiet.atRest_arrived.exec_meet (by simp)

/-- The answer to a request that has just arrived (R50). -/
theorem answeredWaiting_arrived (a : Answer) (c : Channel) : answeredWaiting (arrived n r s) n a c =
    (s.putChannel n c).putSlot n (answeredSlot (s.slot n) r a) := by
  simp [answeredWaiting, arrived, answeredSlot]

theorem faultedChannel_arrived (k : FaultKind) : faultedChannel (arrived n r s) n k = faultedChannel s n k := by
  simp only [faultedChannel, channel_arrived]
  rfl

/-- A request that has just arrived and faults its channel is turned away (R11). -/
theorem enterFaulted_arrived (k : FaultKind) : enterFaulted n k (arrived n r s) =
    (enterFaulted n k s).putSlot n (answeredSlot (s.slot n) r (turnAwayAnswer r)) := by
  have slot : turnedAwaySlot ((arrived n r s).slot n) (some r) = answeredSlot (s.slot n) r (turnAwayAnswer r) := by
    cases r with
    | offer | ask | endBlock | fail => simp [arrived, turnedAwaySlot, answeredSlot, turnAwayAnswer]
  rw [enterFaulted_eq, enterFaulted_eq, faultedChannel_arrived, channel_arrived, slot]
  simp [arrived, State.putChannel, State.putSlot, commandOn]

/-! ### Requests that wait, and requests that fault their channel (R53, R54, R57, R63, R64, R68) -/

/-- Settles O26: a request without an answer in the channel's state stands as it has arrived. -/
theorem requestsWait : Obligations.RequestsWait := by
  intro s n r quiet free waits
  rw [exec_requestInstr_met quiet free]
  exact quiet.atRest_arrived.exec_waitingRequestMet (r := r) (by simp) (by rw [channel_arrived]; exact waits)

/-- Settles O28: the request that has arrived is refused by the fault of its channel. -/
theorem wrongDirectionFaults : Obligations.WrongDirectionFaults := by
  intro s n d r quiet free running held wrong
  have refused : turnAwayAnswer r = .refuse := by
    rcases wrong with ⟨⟨w, rfl⟩, -⟩ | ⟨rfl, -⟩ <;> rfl
  rw [exec_requestInstr_met quiet free, exec_waitingRequestMet_wrong (by simpa using running) (by simpa using held)
    (r := r) (by simp) wrong, enterFaulted_arrived, refused]

/-- Settles O30: the FAIL that has arrived faults its channel, whatever stood before it. -/
theorem failFaults : Obligations.FailFaults := by
  intro s n quiet down state
  have working : answersAtOnce (s.channel n).state = false := by
    rcases state with e | e | ⟨_, e⟩ | e | e | e <;> rw [e] <;> rfl
  rw [exec_fail_met quiet down, exec_waitingRequestMet_fail (by simp) (by simpa using working), enterFaulted_arrived]
  rfl

/-! ### Words exchanged and an END in RUNNING (R57, R63, R65 to R67) -/

section Running

variable (running : (s.channel n).state = .running)
  (held : (s.channel n).contents = some (.transfer d))
include running held

theorem state_arrived : ((arrived n r s).channel n).state = .running ∧
    ((arrived n r s).channel n).contents = some (.transfer d) := by
  simp [running, held]

/-- With a word staged and no more words missing than it, nothing of an OUTBOUND block is in flight (R56). -/
theorem AccountInv.idle_of_last (account : AccountInv s) (dir : d.direction = .outbound)
    {w : Word} {rest : List Word} (staged : (s.channel n).staging = w :: rest)
    (last : (s.channel n).exchanged + 1 = d.count) : s.channelInFlight n = false := by
  have words := account.account n d (by rw [running]; rfl) held
  simp only [blockAccount, dir, staged, List.length_cons] at words
  obtain ⟨given, bound, -⟩ := words
  have last : (((s.channel n).exchanged.toNat + 1) % 2 ^ 16) = d.count.toNat := congrArg BitVec.toNat last
  have := d.count.isLt
  rw [Bool.eq_false_iff]
  intro flying
  rw [if_pos flying] at bound
  omega

end Running

/-- Settles O27: the answers of O32 to a request that has just arrived. -/
theorem wordsExchanged : Obligations.WordsExchanged := by
  intro s n d quiet account free running held
  refine ⟨fun w dir below full room => ?_, fun w rest dir staged given eq => ?_⟩
  · obtain ⟨state, contents⟩ := state_arrived (r := .offer w) running held
    have taken := exec_waitingRequestMet_take quiet.atRest_arrived.block state contents (w := w) (by simp) dir
      (by simpa using below) (by simpa using full) (by simpa using room)
    rw [show Instr.offer n w = requestInstr n (.offer w) from rfl, exec_requestInstr_met quiet free, taken]
    simp only [answeredWaiting_arrived, channel_arrived, free.2]
  · obtain ⟨state, contents⟩ := state_arrived (r := .ask) running held
    have word : ((arrived n .ask s).channel n).staging = w :: rest := by simpa using staged
    have same : given = answeredWaiting (arrived n .ask s) n (.give w) { (arrived n .ask s).channel n with
        request := none
        staging := rest
        exchanged := ((arrived n .ask s).channel n).exchanged + 1
        stallCounter := 0 } := by
      simp only [eq, answeredWaiting_arrived, channel_arrived, free.2]
    rw [show Instr.ask n = requestInstr n .ask from rfl, exec_requestInstr_met quiet free, same]
    refine ⟨fun more => ?_, fun last => ?_⟩
    · exact exec_waitingRequestMet_give quiet.atRest_arrived.block state contents (by simp) dir word
        (.inl (by simpa using more))
    · have idle := account.idle_of_last running held dir staged last
      exact exec_waitingRequestMet_give_last state contents (by simp) dir word (by simpa using last)
        idle

/-- Settles O29: the answers of O32 to an END that has just arrived. -/
theorem endMetInRunning : Obligations.EndMetInRunning := by
  intro s n d quiet account free running held
  obtain ⟨state, contents⟩ := state_arrived (r := .endBlock) running held
  have block := (quiet.atRest_arrived (n := n) (r := .endBlock)).block
  have request : ((arrived n .endBlock s).channel n).request = some .endBlock := by simp
  have met := exec_requestInstr_met quiet free .endBlock
  rw [show requestInstr n .endBlock = Instr.endBlock n from rfl] at met
  rw [met]
  refine ⟨fun done => ?_, fun below full dir ended eq => ?_, fun below full dir ended eq => ?_⟩
  · rw [exec_waitingRequestMet_end block state contents request (by simpa using done), answeredWaiting_arrived,
      channel_arrived, ← free.2, State.putChannel_channel]
  · have same : ended = { answeredWaiting (arrived n .endBlock s) n .ack { (arrived n .endBlock s).channel n with
          request := none
          short := true
          staging := if d.direction = .inbound then ((arrived n .endBlock s).channel n).staging else [] } with
        port := if d.direction = .inbound then (arrived n .endBlock s).port
          else abandonedPort n (arrived n .endBlock s).port } := by
      simp only [eq, answeredWaiting_arrived, channel_arrived, free.2, dir, if_true]
      rfl
    obtain ⟨goes, completes⟩ := exec_waitingRequestMet_short block state contents request (by simpa using below)
      (by simpa using full) same
    exact ⟨fun more => goes (more.symm.imp id fun staged => ⟨dir, by simpa using staged⟩),
      fun moved idle => completes idle (.inr (by simpa using moved))⟩
  · have same : ended = { answeredWaiting (arrived n .endBlock s) n .ack { (arrived n .endBlock s).channel n with
          request := none
          short := true
          staging := if d.direction = .inbound then ((arrived n .endBlock s).channel n).staging else [] } with
        port := if d.direction = .inbound then (arrived n .endBlock s).port
          else abandonedPort n (arrived n .endBlock s).port } := by
      simp only [eq, answeredWaiting_arrived, channel_arrived, free.2, dir, reduceCtorEq, if_false]
      rfl
    obtain ⟨goes, completes⟩ := exec_waitingRequestMet_short block state contents request (by simpa using below)
      (by simpa using full) same
    exact ⟨fun flying => goes (.inl flying), fun idle => completes idle (.inl dir)⟩

/-! ### The slot outside a free conversation (R50) -/

theorem exec_requestInstr_standing (down : (s.slot n).answerValid = false) (stands : (s.channel n).request ≠ none)
    (other : r ≠ .fail) : exec (requestInstr n r) s =
      .next (finishEvent (s.putSlot n { s.slot n with lines := some r })) := by
  have raises : ∀ q, arrive n q s = s.putSlot n { s.slot n with lines := some q } := fun q => by
    rw [arrive, if_neg (by simp [down]), if_pos (Option.isSome_iff_ne_none.mpr stands)]
    rfl
  cases r with
  | fail => exact absurd rfl other
  | offer | ask | endBlock => exact congrArg (Host.Outcome.next ∘ finishEvent) (raises _)

theorem exec_requestInstr_early (up : (s.slot n).answerValid = true) :
    exec (requestInstr n r) s = .next (finishEvent (keepEarly n r s)) := by
  have keeps : ∀ q, arrive n q s = keepEarly n q s := fun q => by simp only [arrive, up, if_true]
  cases r with
  | fail =>
    refine congrArg (Host.Outcome.next ∘ finishEvent) ?_
    simp only [arriveFail, up, if_true]
  | offer | ask | endBlock => exact congrArg (Host.Outcome.next ∘ finishEvent) (keeps _)

/-- A FAIL replaces the request kept early, and the first of the others is kept (log entry 9). -/
theorem keepEarly_takes (h : (s.slot n).early = none ∨ r = .fail) :
    keepEarly n r s = s.putSlot n { s.slot n with early := some r } := by
  rcases h with none | rfl
  · simp [keepEarly, none]
  · simp [keepEarly]

theorem keepEarly_keeps (kept : (s.slot n).early ≠ none) (other : r ≠ .fail) : keepEarly n r s = s := by
  obtain ⟨q, early⟩ := Option.ne_none_iff_exists'.mp kept
  have slot : ({ s.slot n with early := some q } : Slot) = s.slot n := by rw [← early]
  simp [keepEarly, early, other, slot]

/-- A request kept early arrives when answer valid falls. -/
theorem exec_requestValidFall_early (up : (s.slot n).answerValid = true) (early : (s.slot n).early = some r)
    (free : (s.channel n).request = none) : exec (.requestValidFall n) s = exec (requestInstr n r)
      (s.putSlot n { s.slot n with lines := none, answerValid := false, early := none }) := by
  rw [exec_requestInstr ⟨by simp, by simpa using free⟩]
  show Host.Outcome.next (finishEvent (lowerRequestValid n s)) = _
  simp [lowerRequestValid, up, early, raiseLines]

theorem exec_requestValidFall_standing (down : (s.slot n).answerValid = false) : exec (.requestValidFall n) s =
    .next (finishEvent (s.putSlot n { s.slot n with lines := none })) := by
  show Host.Outcome.next (finishEvent (lowerRequestValid n s)) = _
  simp [lowerRequestValid, down]

theorem exec_requestValidFall_answered (up : (s.slot n).answerValid = true) (early : (s.slot n).early = none) :
    exec (.requestValidFall n) s =
      .next (finishEvent (s.putSlot n { s.slot n with lines := none, answerValid := false })) := by
  show Host.Outcome.next (finishEvent (lowerRequestValid n s)) = _
  simp [lowerRequestValid, up, early]

/-- The four answer codes (R50). -/
theorem Answer.code_iff (a : Answer) : (a.code = 0 ↔ a = .take) ∧ (a.code = 1 ↔ ∃ w, a = .give w) ∧
    (a.code = 2 ↔ a = .refuse) ∧ (a.code = 3 ↔ a = .ack) := by
  cases a <;> simp [Answer.code]

/-- Settles O31: each clause is the equation of its case. -/
theorem slotConversation : Obligations.SlotConversation := by
  intro s n r
  refine ⟨exec_requestInstr_standing, fun up takes => ?_, fun up kept other => ?_, exec_requestValidFall_standing,
    exec_requestValidFall_answered, exec_requestValidFall_early,
    fun w => ⟨rfl, rfl, rfl, rfl, commandOfLines_code n r w⟩, r.data_eq_some, Slot.answer_hidden,
    fun up a answer => ?_⟩
  · rw [exec_requestInstr_early up, keepEarly_takes takes]
  · rw [exec_requestInstr_early up, keepEarly_keeps kept other]
  · obtain ⟨code, word⟩ := Slot.answer_shown up answer
    obtain ⟨take, give, refuse, ack⟩ := a.code_iff
    exact ⟨code, word, take, give, refuse, ack, a.data_eq_some⟩

end Sys2Proof.Machine
end

section
/-! SUPPORT. The grant of a data request (O40): translated and issued, or refused, with the selection made again. -/

namespace Sys2Proof.Machine

-- The proofs are elaborated in turn: side by side their threads outgrow the check's memory limit.
set_option Elab.async false

variable {s : State} {n : ChannelNo} {m : SetNo} {d : Transfer}

/-! ### The selection after a refusal (R79, R104) -/

/-- Each refusal takes one channel's request away, so that one round more than the requests makes no difference. -/
theorem grantChannels_succ (k : Nat) : ∀ s : State, (eligibleChannels s).length ≤ k →
    grantChannels (k + 1) s = grantChannels k s := by
  induction k with
  | zero =>
    intro s none
    have nobody : chosenChannel s = Option.none := by
      rw [chosenChannel, List.eq_nil_of_length_eq_zero (Nat.le_zero.mp none)]
      rfl
    simp only [grantChannels, nobody]
  | succ k ih =>
    intro s rounds
    cases chosen : chosenChannel s with
    | none => simp only [grantChannels, chosen]
    | some n =>
      have mem := chosenChannel_mem chosen
      obtain ⟨r, request⟩ := Option.isSome_iff_exists.mp (List.mem_filter.mp mem).2
      rcases grantChannel_cases request with ⟨t, granted, -⟩ | ⟨kind, refused⟩
      · simp only [grantChannels, chosen, request, granted]
      · have fewer : ((eligibleChannels s).filter (· ≠ n)).length < (eligibleChannels s).length :=
          List.length_filter_lt_length_iff_exists.mpr ⟨n, mem, by simp⟩
        have again := ih (enterFaulted n kind s) (by rw [eligibleChannels_enterFaulted]; omega)
        rw [grantChannels, grantChannels]
        simp only [chosen, request, refused]
        exact again

/-- The selection goes on at a channel that the refusal has faulted. -/
theorem grantChannels_of_refused {r : ChannelRequest} {k : FaultKind} (chosen : chosenChannel s = some n)
    (request : eligibleRequest s n = some r) (refused : grantChannel n r s = .refused (enterFaulted n k s)) :
    grantChannels 17 s = grantChannels 17 (enterFaulted n k s) := by
  have fewer : (eligibleChannels (enterFaulted n k s)).length ≤ 16 := by
    rw [eligibleChannels_enterFaulted]
    exact (List.length_filter_le _ _).trans (List.length_filter_le _ channelNumbers)
  rw [grantChannels_succ 16 (enterFaulted n k s) fewer]
  simp only [grantChannels, chosen, request, refused]

/-! ### A data request granted (R58, R61, R78, R81) -/

/-- The data request of a RUNNING channel bound to a READY set is eligible (R99). -/
theorem eligibleRequest_of_running {r : ChannelRequest} (free : s.channelInFlight n = false)
    (running : (s.channel n).state = .running) (held : (s.channel n).contents = some (.transfer d))
    (bound : (s.channel n).mapSet = some m) (ready : (s.mapSet m).state = .ready)
    (request : dataRequest (s.channel n) d = some r) : eligibleRequest s n = some r := by
  have set : boundSetReady s n = true := by simp [boundSetReady, bound, ready]
  have presents : channelRequest s n = some r := by
    simp only [channelRequest, free, running, held, request, Bool.false_eq_true, if_false]
  unfold eligibleRequest
  cases r <;> simp [presents, set]

section Granted

variable (can : canGrant s = true) (map : mapRequest s = none) (under : s.log.underWay = none)
  {r : ChannelRequest} (request : eligibleRequest s n = some r) (chosen : Chosen s n) {logical : LogAddr} {a : Access}
  {purpose : PageNo → Purpose} (data : grantChannel n r s = grantData n m logical a purpose s)
include can map under request chosen data

theorem exec_grant_passes {p : PageNo} {addr : PhysAddr}
    (passes : translateAccess (s.mapSet m) logical a = .passes p addr) :
    exec .grant s = .next (finishEvent
      { s.putSet m ((s.mapSet m).putEntry p { (s.mapSet m).entry p with referenced := true }) with
        port :=
          { streakRecord s.port n (decide (∃ k, k ≠ n ∧ eligibleRequest s k ≠ none)) with
            inFlight := some { purpose := purpose p, address := addr, delivery := .deliver } } }) := by
  have issued : grantChannel n r s = .issued (setReferenced m p (issueForChannel n (purpose p) addr s)) := by
    rw [data, grantData, passes]
  rw [exec_grant can, arbitrate_channels can map (logRequest_of_none under),
    grantChannels_of_issued 16 (chosen.chosenChannel (by simp [request])) request issued, issueForChannel_eq]
  rfl

theorem exec_grant_fails {k : FaultKind} (fails : translateAccess (s.mapSet m) logical a = .fails k) :
    exec .grant s = exec .grant (enterFaulted n k s) := by
  have refused : grantChannel n r s = .refused (enterFaulted n k s) := by
    rw [data, grantData, fails]
  have still := canGrant_enterFaulted n k can
  have free : mapRequest (enterFaulted n k s) = none ∧ (enterFaulted n k s).log.underWay = none := by
    rw [enterFaulted_eq]
    exact ⟨map, under⟩
  rw [exec_grant can, exec_grant still, arbitrate_channels can map (logRequest_of_none under),
    arbitrate_channels still free.1 (logRequest_of_none free.2),
    grantChannels_of_refused (chosen.chosenChannel (by simp [request])) request refused]

end Granted

/-- Settles O40: the grant of each direction's request, by the outcome of its translation. -/
theorem dataGrantTranslated : Obligations.DataGrantTranslated := by
  intro s n m d can map under chosen running held bound ready
  have eligible := fun r => eligibleRequest_of_running (r := r) (channelInFlight_of_canGrant can n) running held bound
    ready
  refine ⟨fun w rest dir staged => ?_, fun dir below room full => ?_⟩
  · have request := eligible (.write ((s.channel n).nextLogical d) w) (by simp [dataRequest, dir, staged])
    have data : grantChannel n (.write ((s.channel n).nextLogical d) w) s =
        grantData n m ((s.channel n).nextLogical d) .write (fun p => .dataWrite n m p w) s := by
      simp only [grantChannel, bound]
    exact ⟨fun p addr => exec_grant_passes can map under request chosen data,
      fun k => exec_grant_fails can map under request chosen data⟩
  · have request := eligible (.read ((s.channel n).nextLogical d))
      (by simp [dataRequest, dir, below, room, full, Config.stagingDepth])
    have data : grantChannel n (.read ((s.channel n).nextLogical d)) s =
        grantData n m ((s.channel n).nextLogical d) .read (fun p => .dataRead n m p) s := by
      simp only [grantChannel, bound]
    exact ⟨fun p addr => exec_grant_passes can map under request chosen data,
      fun k => exec_grant_fails can map under request chosen data⟩

end Sys2Proof.Machine
end
section
/-! SUPPORT. The words of one channel's block and its own transaction in flight, apart from the rest of the part (for
O56): what each change of a channel record keeps of their account. -/

namespace Sys2Proof.Machine

-- The proofs are elaborated in turn: side by side their threads outgrow the check's memory limit.
set_option Elab.async false

variable {s t : State} {n m : ChannelNo} {c : Channel} {d : Transfer} {x : Option Transaction}

/-! ### A channel's own transaction -/

/-- The transaction in flight that channel `n` requested (R96). -/
def ownTransaction (s : State) (n : ChannelNo) : Option Transaction :=
  s.port.inFlight.filter fun t => t.purpose.requester == some n

theorem ownTransaction_eq_some {y : Transaction} :
    ownTransaction s n = some y ↔ s.port.inFlight = some y ∧ y.purpose.requester = some n := by
  simp [ownTransaction, Option.filter_eq_some_iff]

theorem ownTransaction_of_port (port : t.port = s.port) (n : ChannelNo) :
    ownTransaction t n = ownTransaction s n := by
  rw [ownTransaction, port, ownTransaction]

theorem ownTransaction_of_free (free : s.port.inFlight = none) (n : ChannelNo) : ownTransaction s n = none := by
  rw [ownTransaction, free, Option.filter_none]

/-- A transaction in flight is that of its requester alone. -/
theorem ownTransaction_of_other {y : Transaction} (flight : s.port.inFlight = some y)
    (other : y.purpose.requester ≠ some m) : ownTransaction s m = none := by
  simp [ownTransaction, flight, other]

/-- Whether a channel waits for its own transaction: an orphan is none of its own any longer (log entry 8). -/
def waitedFor (x : Option Transaction) : Bool := x.any fun y => y.delivery != .orphan

theorem channelInFlight_eq (s : State) (n : ChannelNo) :
    s.channelInFlight n = waitedFor (ownTransaction s n) := by
  unfold State.channelInFlight waitedFor ownTransaction
  cases s.port.inFlight with
  | none => rfl
  | some y => by_cases own : y.purpose.requester = some n <;> simp [own]

/-- A transaction that its channel has abandoned (R96). -/
def Transaction.abandoned (y : Transaction) : Transaction :=
  if y.delivery = .deliver then { y with delivery := .discard } else y

theorem Transaction.abandoned_delivery (y : Transaction) : y.abandoned.delivery ≠ .deliver := by
  unfold Transaction.abandoned
  split
  · simp
  · assumption

theorem waitedFor_abandoned (x : Option Transaction) : waitedFor (x.map Transaction.abandoned) = waitedFor x := by
  rcases x with _ | y
  · rfl
  · cases e : y.delivery with
    | deliver =>
      simp only [waitedFor, Transaction.abandoned, e, Option.map_some, Option.any_some, if_true]
      rfl
    | discard | orphan => simp [waitedFor, Transaction.abandoned, e]

theorem ownTransaction_discard (port : t.port = abandonedPort n s.port) :
    ownTransaction t n = (ownTransaction s n).map Transaction.abandoned := by
  rw [ownTransaction, port, ownTransaction, abandonedPort]
  cases s.port.inFlight with
  | none => rfl
  | some y =>
    by_cases own : y.purpose.requester = some n
    · by_cases delivered : y.delivery = .deliver <;> simp [own, delivered, Transaction.abandoned, Option.filter_some]
    · simp [own, Option.filter_some]

theorem ownTransaction_discard_of_ne (port : t.port = abandonedPort n s.port) (other : m ≠ n) :
    ownTransaction t m = ownTransaction s m := by
  rw [ownTransaction, port, ownTransaction, abandonedPort]
  cases s.port.inFlight with
  | none => rfl
  | some y =>
    by_cases own : y.purpose.requester = some n
    · by_cases delivered : y.delivery = .deliver <;> simp [own, delivered, other.symm, Option.filter_some]
    · simp [own]

/-! ### The account of one channel (R55, R56, R96, R107) -/

/-- The words of a block are in account, `flight` being the number of transactions that the channel waits for
(R56, R67). -/
def WordsFit (c : Channel) (d : Transfer) (flight : Nat) : Prop :=
  match d.direction with
  | .inbound =>
    c.exchanged.toNat = c.memoryCount.toNat + c.staging.length ∧ c.exchanged ≤ d.count ∧ c.staging.length ≤ 4
  | .outbound =>
    c.exchanged.toNat + c.staging.length ≤ c.memoryCount.toNat ∧
      c.memoryCount.toNat + flight ≤ d.count.toNat ∧
      c.staging.length + (if c.short then 0 else flight) ≤ 4 ∧
      (c.short = true → c.staging = [])

theorem wordsFit_inbound (dir : d.direction = .inbound) (flight : Nat) : WordsFit c d flight ↔
    c.exchanged.toNat = c.memoryCount.toNat + c.staging.length ∧ c.exchanged ≤ d.count ∧
      c.staging.length ≤ 4 := by
  unfold WordsFit
  rw [dir]

theorem wordsFit_outbound (dir : d.direction = .outbound) (flight : Nat) : WordsFit c d flight ↔
    c.exchanged.toNat + c.staging.length ≤ c.memoryCount.toNat ∧
      c.memoryCount.toNat + flight ≤ d.count.toNat ∧
      c.staging.length + (if c.short then 0 else flight) ≤ 4 ∧ (c.short = true → c.staging = []) := by
  unfold WordsFit
  rw [dir]

/-- What the account asks of one channel record `c` and of the channel's own transaction `x`. -/
structure AccountFits (c : Channel) (x : Option Transaction) : Prop where
  contents : contentsFit c
  staged : c.staging ≠ [] → inBlock c.state ∧ c.contents.isSome
  account : ∀ d, inBlock c.state → c.contents = some (.transfer d) → WordsFit c d (waitedFor x).toNat
  fits : ∀ y, x = some y → transactionFits c y

theorem blockAccount_iff (s : State) (n : ChannelNo) (d : Transfer) :
    blockAccount s n d ↔ WordsFit (s.channel n) d (waitedFor (ownTransaction s n)).toNat := by
  have count : (if s.channelInFlight n then 1 else 0) = (waitedFor (ownTransaction s n)).toNat := by
    rw [channelInFlight_eq, Bool.toNat, Bool.cond_eq_ite]
  cases dir : d.direction with
  | inbound => simp only [blockAccount, WordsFit, dir]
  | outbound => simp only [blockAccount, WordsFit, dir, count]

/-- The account of the part is that of each channel. -/
theorem accountInv_iff : AccountInv s ↔ ∀ n, AccountFits (s.channel n) (ownTransaction s n) :=
  ⟨fun h n => ⟨h.contents n, h.staged n, fun d block held => (blockAccount_iff s n d).mp (h.account n d block held),
      fun y own => h.fits n y (ownTransaction_eq_some.mp own).1 (ownTransaction_eq_some.mp own).2⟩,
    fun h => ⟨fun n => (h n).contents, fun n => (h n).staged,
      fun n d block held => (blockAccount_iff s n d).mpr ((h n).account d block held),
      fun n y flight own => (h n).fits y (ownTransaction_eq_some.mpr ⟨flight, own⟩)⟩⟩

/-! ### A channel beside its block -/

/-- The states in which a channel neither fetches nor works on a block, nor is halted. -/
def isAside : ChannelState → Bool
  | .disabled | .idle | .settling _ | .holding | .aborting | .faulted => true
  | _ => false

theorem inBlock_of_aside {x : ChannelState} (aside : isAside x = true) : inBlock x = false := by
  cases x <;> simp [isAside, inBlock] at *

/-- Beside its block a channel awaits nothing, but may have abandoned its transaction (R96, R107). -/
theorem transactionFits_aside (aside : isAside c.state = true) (y : Transaction) :
    transactionFits c y = (y.delivery != .deliver) := by
  cases state : c.state <;> rw [state] at aside <;> try cases aside
  all_goals cases deliver : y.delivery <;> cases y.purpose <;> simp [transactionFits, state, deliver]

/-- Nothing is delivered to the channel any longer: it has no transaction in flight, or an abandoned or orphaned
one. -/
def NoDelivery (x : Option Transaction) : Prop := ∀ y, x = some y → y.delivery ≠ .deliver

theorem noDelivery_none : NoDelivery none := nofun

theorem noDelivery_abandoned (x : Option Transaction) : NoDelivery (x.map Transaction.abandoned) := fun y own => by
  obtain ⟨z, -, rfl⟩ := Option.map_eq_some_iff.mp own
  exact z.abandoned_delivery

theorem delivery_of_not_waited {y : Transaction} (idle : waitedFor x = false) (own : x = some y) :
    y.delivery = .orphan := by
  subst own
  simpa [waitedFor] using idle

theorem noDelivery_of_not_waited (idle : waitedFor x = false) : NoDelivery x := fun y own => by
  rw [delivery_of_not_waited idle own]
  simp

theorem AccountFits.of_aside (aside : isAside c.state = true) (contents : contentsFit c) (empty : c.staging = [])
    (none : NoDelivery x) : AccountFits c x where
  contents := contents
  staged words := absurd empty words
  account d block := by rw [inBlock_of_aside aside] at block; cases block
  fits y own := by rw [transactionFits_aside aside]; simpa using none y own

theorem AccountFits.staging_eq_nil (h : AccountFits c x) (outside : inBlock c.state = false) : c.staging = [] := by
  by_contra words
  have block := (h.staged words).1
  rw [outside] at block
  cases block

theorem AccountFits.noDelivery (h : AccountFits c x) (aside : isAside c.state = true) : NoDelivery x := fun y own => by
  simpa [transactionFits_aside aside] using h.fits y own

/-! ### The contents that a state calls for (R1, R5, R8, R18, R38) -/

/-- In RUNNING, SETTLING and HOLDING a channel holds the descriptor of its block. -/
theorem contentsFit_working
    (state : c.state = .running ∨ (∃ step, c.state = .settling step) ∨ c.state = .holding) :
    contentsFit c ↔ c.resume = none ∧ ∃ d, c.contents = some (.transfer d) := by
  rcases state with state | ⟨step, state⟩ | state
  all_goals rcases resume : c.resume with _ | _ <;> rcases contents : c.contents with _ | (d | a) <;>
    simp [contentsFit, state, resume, contents]

/-- A channel is halted in its block or in its fetch. -/
theorem contentsFit_halted (state : c.state = .halting ∨ c.state = .halted) :
    contentsFit c ↔ (c.resume = some .running ∧ ∃ d, c.contents = some (.transfer d)) ∨
      c.resume = some .fetching ∧ c.contents = none := by
  rcases state with state | state
  all_goals rcases resume : c.resume with _ | (_ | _) <;> rcases contents : c.contents with _ | (d | a) <;>
    simp [contentsFit, state, resume, contents]

/-- Elsewhere but in FAULTED a channel holds no contents. -/
theorem contentsFit_bare
    (state : c.state = .fetching ∨ c.state = .idle ∨ c.state = .disabled ∨ c.state = .aborting) :
    contentsFit c ↔ c.resume = none ∧ c.contents = none := by
  rcases state with state | state | state | state
  all_goals rcases resume : c.resume with _ | _ <;> rcases contents : c.contents with _ | _ <;>
    simp [contentsFit, state, resume, contents]

theorem contentsFit_faulted (state : c.state = .faulted) : contentsFit c ↔ c.resume = none := by
  rcases resume : c.resume with _ | _ <;> simp [contentsFit, state, resume]

/-! ### A channel that fetches (R5, R34) -/

/-- A read is delivered to a fetching channel only while a word is missing. -/
theorem transactionFits_fetch (state : c.state = .fetching ∨ c.state = .halting) (contents : c.contents = none)
    (y : Transaction) : transactionFits c y = true ↔
      (y.delivery = .deliver → (∃ n, y.purpose = .descRead n) ∧ c.fetchProgress < 4) := by
  rcases state with state | state
  all_goals cases deliver : y.delivery <;> cases purpose : y.purpose <;>
    simp [transactionFits, state, contents, deliver, purpose]

/-- What the account asks of a channel that fetches, or is halting in a fetch. -/
theorem AccountFits.of_fetch (state : c.state = .fetching ∨ c.state = .halting) (fits : contentsFit c)
    (contents : c.contents = none) (empty : c.staging = [])
    (reads : ∀ y, x = some y → y.delivery = .deliver → (∃ n, y.purpose = .descRead n) ∧ c.fetchProgress < 4) :
    AccountFits c x where
  contents := fits
  staged words := absurd empty words
  account d _ held := by rw [contents] at held; cases held
  fits y own := (transactionFits_fetch state contents y).mpr (reads y own)

/-- A fetch begun anew awaits nothing (R5). -/
theorem AccountFits.of_begun (state : c.state = .fetching) (resume : c.resume = none) (contents : c.contents = none)
    (empty : c.staging = []) (none : NoDelivery x) : AccountFits c x :=
  .of_fetch (.inl state) ((contentsFit_bare (.inl state)).mpr ⟨resume, contents⟩) contents empty
    fun y own deliver => absurd deliver (none y own)

/-- Without contents nothing is staged. -/
theorem AccountFits.staging_of_bare (h : AccountFits c x) (contents : c.contents = none) : c.staging = [] := by
  by_contra words
  have some := (h.staged words).2
  rw [contents] at some
  cases some

/-! ### A channel in its block (R55, R56) -/

/-- A data read, of any set and page. -/
def Purpose.reads : Purpose → Bool
  | .dataRead .. => true
  | _ => false

/-- A data write, of any set and page. -/
def Purpose.writes : Purpose → Bool
  | .dataWrite .. => true
  | _ => false

theorem transactionFits_inbound (state : c.state = .running ∨ c.state = .halting)
    (held : c.contents = some (.transfer d)) (dir : d.direction = .inbound) (y : Transaction) :
    transactionFits c y = true ↔ (y.delivery = .deliver → y.purpose.writes = true ∧ c.staging ≠ []) ∧
      y.delivery ≠ .discard := by
  rcases state with state | state
  all_goals cases deliver : y.delivery <;> cases purpose : y.purpose <;>
    simp [transactionFits, state, held, dir, deliver, purpose, Purpose.writes]

theorem transactionFits_outbound (state : c.state = .running ∨ c.state = .halting)
    (held : c.contents = some (.transfer d)) (dir : d.direction = .outbound) (y : Transaction) :
    transactionFits c y = true ↔ (y.delivery = .deliver → y.purpose.reads = true ∧ c.short = false) ∧
      (y.delivery = .discard → y.purpose.reads = true ∧ c.short = true) := by
  rcases state with state | state
  all_goals cases deliver : y.delivery <;> cases purpose : y.purpose <;>
    simp [transactionFits, state, held, dir, deliver, purpose, Purpose.reads]

/-- A channel comes to HALTED only when nothing of its own is in flight (R19, log entries 8 and 21). -/
theorem transactionFits_halted (state : c.state = .halted) (y : Transaction) :
    transactionFits c y = (y.delivery == .orphan) := by
  cases deliver : y.delivery <;> cases purpose : y.purpose <;> simp [transactionFits, state, deliver, purpose]

theorem AccountFits.of_block (contents : contentsFit c) (block : inBlock c.state)
    (held : c.contents = some (.transfer d)) (words : WordsFit c d (waitedFor x).toNat)
    (fits : ∀ y, x = some y → transactionFits c y) : AccountFits c x where
  contents := contents
  staged _ := ⟨block, by rw [held]; rfl⟩
  account d' _ held' := by cases held.symm.trans held'; exact words
  fits := fits

/-- A block in which a channel works, with the descriptor that it holds. -/
theorem AccountFits.running (h : AccountFits c x) (state : c.state = .running) :
    c.resume = none ∧ ∃ d, c.contents = some (.transfer d) ∧ WordsFit c d (waitedFor x).toNat := by
  obtain ⟨resume, d, held⟩ := (contentsFit_working (.inl state)).mp h.contents
  exact ⟨resume, d, held, h.account d (by rw [state]; rfl) held⟩

/-! ### A block that is left (R41, R69) -/

/-- A channel that goes on to another descriptor has no state to resume and no words staged, and awaits nothing. -/
structure Departs (c : Channel) (x : Option Transaction) : Prop where
  resume : c.resume = none
  empty : c.staging = []
  none : NoDelivery x

/-- A channel that goes on to settle its block. -/
structure Settles (c : Channel) (x : Option Transaction) : Prop extends Departs c x where
  held : ∃ d, c.contents = some (.transfer d)

theorem AccountFits.settles (h : AccountFits c x)
    (state : (∃ step, c.state = .settling step) ∨ c.state = .holding) : Settles c x := by
  have aside : isAside c.state = true := by rcases state with ⟨step, state⟩ | state <;> rw [state] <;> rfl
  obtain ⟨resume, held⟩ := (contentsFit_working (.inr state)).mp h.contents
  exact ⟨⟨resume, h.staging_eq_nil (inBlock_of_aside aside), h.noDelivery aside⟩, held⟩

/-- A complete block has all its words moved (R69). -/
theorem staging_of_complete {flight : Nat} (words : WordsFit c d flight)
    (complete : completionHolds c d false = true) : c.staging = [] := by
  simp only [completionHolds, Bool.not_false, Bool.true_and] at complete
  cases dir : d.direction with
  | inbound =>
    obtain ⟨count, bound, -⟩ := (wordsFit_inbound dir flight).mp words
    rw [dir] at complete
    simp only [Bool.or_eq_true, Bool.and_eq_true, beq_iff_eq, List.isEmpty_iff] at complete
    rcases complete with all | ⟨-, empty⟩
    · rw [← all, BitVec.le_def] at bound
      exact List.eq_nil_of_length_eq_zero (by omega)
    · exact empty
  | outbound =>
    obtain ⟨given, bound, -, short⟩ := (wordsFit_outbound dir flight).mp words
    rw [dir] at complete
    simp only [Bool.or_eq_true, beq_iff_eq] at complete
    rcases complete with all | ended
    · rw [← all] at bound
      exact List.eq_nil_of_length_eq_zero (by omega)
    · exact short ended

theorem AccountFits.settles_of_complete (h : AccountFits c x) (state : c.state = .running)
    (held : c.contents = some (.transfer d)) (complete : completionHolds c d (waitedFor x) = true) :
    Settles c x := by
  have idle : waitedFor x = false := by
    simp only [completionHolds, Bool.and_eq_true, Bool.not_eq_true'] at complete
    exact complete.1
  rw [idle] at complete
  obtain ⟨resume, -⟩ := h.running state
  exact ⟨⟨resume, staging_of_complete (h.account d (by rw [state]; rfl) held) complete,
    noDelivery_of_not_waited idle⟩, d, held⟩

end Sys2Proof.Machine
end

section
/-! SUPPORT. What the events of a block change in the record of its channel, and that the account of its words stays
(for O56): R57, R59, R62, R63, R66, R67 for the words, R18, R19, R22 for a halt, R104 for a grant. -/

namespace Sys2Proof.Machine

-- The proofs are elaborated in turn: side by side their threads outgrow the check's memory limit.
set_option Elab.async false

variable {c : Channel} {d : Transfer} {x : Option Transaction}

/-- The account does not look at the request, the stall counter, the pending event or the fault of a record. -/
theorem AccountFits.of_record (h : AccountFits c x) {q : Option LinkRequest} {k : BitVec 8} {p : Option EventRecord}
    {f : Option HeldFault} :
    AccountFits { c with request := q, stallCounter := k, pendingEvent := p, fault := f } x :=
  ⟨h.contents, h.staged, h.account, h.fits⟩

/-- The part is rid of the channel's transaction (R106). -/
theorem AccountFits.freed (h : AccountFits c x) : AccountFits c none where
  contents := h.contents
  staged := h.staged
  account d block held := by
    have words := h.account d block held
    cases dir : d.direction with
    | inbound => exact (wordsFit_inbound dir _).mpr ((wordsFit_inbound dir _).mp words)
    | outbound =>
      obtain ⟨given, bound, depth, short⟩ := (wordsFit_outbound dir _).mp words
      refine (wordsFit_outbound dir _).mpr ⟨given, (Nat.le_add_right ..).trans bound, ?_, short⟩
      simp only [waitedFor, Option.any_none, Bool.toNat_false, ite_self]
      omega
  fits := nofun

/-! ### A block by its direction -/

theorem inBlock_of_working (state : c.state = .running ∨ c.state = .halting) : inBlock c.state := by
  rcases state with e | e <;> rw [e] <;> rfl

/-- What the account says of the transaction of an INBOUND block: it is the write of a staged word (R96, R107). -/
def WritesFit (c : Channel) (x : Option Transaction) : Prop :=
  ∀ y, x = some y → (y.delivery = .deliver → y.purpose.writes = true ∧ c.staging ≠ []) ∧ y.delivery ≠ .discard

/-- What the account says of the transaction of an OUTBOUND block: it is a read, abandoned in a block ended short
(R67, R96, R107). -/
def ReadsFit (c : Channel) (x : Option Transaction) : Prop :=
  ∀ y, x = some y → (y.delivery = .deliver → y.purpose.reads = true ∧ c.short = false) ∧
    (y.delivery = .discard → y.purpose.reads = true ∧ c.short = true)

section Direction

variable (state : c.state = .running ∨ c.state = .halting) (contents : contentsFit c)
  (held : c.contents = some (.transfer d))
include state held

theorem AccountFits.inbound (h : AccountFits c x) (dir : d.direction = .inbound) :
    c.exchanged.toNat = c.memoryCount.toNat + c.staging.length ∧ c.exchanged.toNat ≤ d.count.toNat ∧
      c.staging.length ≤ 4 ∧ WritesFit c x := by
  obtain ⟨count, bound, depth⟩ := (wordsFit_inbound dir _).mp (h.account d (inBlock_of_working state) held)
  exact ⟨count, BitVec.le_def.mp bound, depth, fun y own =>
    (transactionFits_inbound state held dir y).mp (h.fits y own)⟩

theorem AccountFits.outbound (h : AccountFits c x) (dir : d.direction = .outbound) :
    c.exchanged.toNat + c.staging.length ≤ c.memoryCount.toNat ∧
      c.memoryCount.toNat + (waitedFor x).toNat ≤ d.count.toNat ∧
      c.staging.length + (if c.short then 0 else (waitedFor x).toNat) ≤ 4 ∧
      (c.short = true → c.staging = []) ∧ ReadsFit c x := by
  obtain ⟨given, bound, depth, short⟩ :=
    (wordsFit_outbound dir _).mp (h.account d (inBlock_of_working state) held)
  exact ⟨given, bound, depth, short, fun y own =>
    (transactionFits_outbound state held dir y).mp (h.fits y own)⟩

include contents

theorem AccountFits.of_inbound (dir : d.direction = .inbound)
    (count : c.exchanged.toNat = c.memoryCount.toNat + c.staging.length)
    (bound : c.exchanged.toNat ≤ d.count.toNat) (depth : c.staging.length ≤ 4) (fits : WritesFit c x) :
    AccountFits c x :=
  .of_block contents (inBlock_of_working state) held
    ((wordsFit_inbound dir _).mpr ⟨count, BitVec.le_def.mpr bound, depth⟩)
    fun y own => (transactionFits_inbound state held dir y).mpr (fits y own)

theorem AccountFits.of_outbound (dir : d.direction = .outbound)
    (given : c.exchanged.toNat + c.staging.length ≤ c.memoryCount.toNat)
    (bound : c.memoryCount.toNat + (waitedFor x).toNat ≤ d.count.toNat)
    (depth : c.staging.length + (if c.short then 0 else (waitedFor x).toNat) ≤ 4)
    (short : c.short = true → c.staging = []) (fits : ReadsFit c x) : AccountFits c x :=
  .of_block contents (inBlock_of_working state) held
    ((wordsFit_outbound dir _).mpr ⟨given, bound, depth, short⟩)
    fun y own => (transactionFits_outbound state held dir y).mpr (fits y own)

end Direction

theorem toNat_add_one {w : BitVec 16} {k : Nat} (below : w.toNat < k) (bound : k < 2 ^ 16) :
    (w + 1).toNat = w.toNat + 1 := by
  show (w.toNat + 1) % 2 ^ 16 = w.toNat + 1
  omega

/-- A read is no write. -/
theorem Purpose.writes_of_reads {p : Purpose} (reads : p.reads = true) : p.writes = false := by
  cases p with
  | dataRead => rfl
  | mapRead | logWrite | descRead | dataWrite => cases reads

/-! ### The words of a block -/

section Words

variable (h : AccountFits c x) (held : c.contents = some (.transfer d))
include h held

/-- A word taken is staged (R57). -/
theorem AccountFits.take (running : c.state = .running) (dir : d.direction = .inbound) (take : canTake c d = true)
    (w : Word) : AccountFits { c with
      request := none
      staging := c.staging ++ [w]
      exchanged := c.exchanged + 1
      stallCounter := 0 } x := by
  obtain ⟨count, -, -, fits⟩ := h.inbound (.inl running) held dir
  simp only [canTake, Config.stagingDepth, Bool.and_eq_true, decide_eq_true_eq, BitVec.lt_def] at take
  obtain ⟨⟨below, -⟩, room⟩ := take
  have next := toNat_add_one below d.count.isLt
  refine .of_inbound (.inl running) h.contents held dir ?_ ?_ ?_ fun y own =>
    ⟨fun deliver => ⟨((fits y own).1 deliver).1, by simp⟩, (fits y own).2⟩
  · simp only [next, List.length_append, List.length_singleton]
    omega
  · simp only [next]
    omega
  · simpa using room

/-- A word given leaves the staging queue (R63). -/
theorem AccountFits.give (running : c.state = .running) (dir : d.direction = .outbound) {w : Word}
    {rest : List Word} (staged : c.staging = w :: rest) : AccountFits { c with
      request := none
      staging := rest
      exchanged := c.exchanged + 1
      stallCounter := 0 } x := by
  obtain ⟨given, bound, depth, short, fits⟩ := h.outbound (.inl running) held dir
  have full : c.short ≠ true := fun e => by
    rw [short e] at staged
    cases staged
  rw [staged, List.length_cons] at given depth
  have next := toNat_add_one (show c.exchanged.toNat < c.memoryCount.toNat by omega) c.memoryCount.isLt
  refine .of_outbound (.inl running) h.contents held dir ?_ bound ?_ (fun e => absurd e full) fits
  · simp only [next]
    omega
  · exact Nat.le_of_succ_le (by simpa only [Nat.succ_add] using (show rest.length.succ + _ ≤ 4 from depth))

/-- An END makes an INBOUND block short (R66). -/
theorem AccountFits.endInbound (running : c.state = .running) (dir : d.direction = .inbound) :
    AccountFits { c with request := none, short := true } x := by
  obtain ⟨count, bound, depth, fits⟩ := h.inbound (.inl running) held dir
  exact .of_inbound (.inl running) h.contents held dir count bound depth fits

/-- An END makes an OUTBOUND block short: what was staged is dropped, and the read in flight is abandoned
(R67). -/
theorem AccountFits.endOutbound (running : c.state = .running) (dir : d.direction = .outbound) :
    AccountFits { c with request := none, short := true, staging := [] }
      (x.map Transaction.abandoned) := by
  obtain ⟨given, bound, -, -, fits⟩ := h.outbound (.inl running) held dir
  refine .of_outbound (.inl running) h.contents held dir ?_ (by rwa [waitedFor_abandoned]) (by simp)
    (fun _ => rfl) fun y own => ⟨fun deliver => absurd deliver (noDelivery_abandoned x y own), fun discard => ⟨?_, rfl⟩⟩
  · show c.exchanged.toNat + 0 ≤ c.memoryCount.toNat
    omega
  · obtain ⟨z, before, rfl⟩ := Option.map_eq_some_iff.mp own
    obtain ⟨deliver, kept⟩ := fits z before
    unfold Transaction.abandoned at discard ⊢
    split
    · next delivered => exact (deliver delivered).1
    · next other =>
      rw [if_neg other] at discard
      exact (kept discard).1

/-! ### The ending of a data transaction -/

variable (state : c.state = .running ∨ c.state = .halting)
include state

/-- A write that ended OK has taken the head word to memory (R59). -/
theorem AccountFits.written {y : Transaction} (own : x = some y) (deliver : y.delivery = .deliver)
    (writes : y.purpose.writes = true) : AccountFits { c with
      staging := c.staging.tail
      memoryCount := c.memoryCount + 1 } none := by
  cases dir : d.direction with
  | inbound =>
    obtain ⟨count, bound, depth, fits⟩ := h.inbound state held dir
    have some := List.length_pos_iff.mpr ((fits y own).1 deliver).2
    have next := toNat_add_one (show c.memoryCount.toNat < c.exchanged.toNat by omega) c.exchanged.isLt
    refine .of_inbound state h.contents held dir ?_ bound ?_ nofun
    · simp only [next, List.length_tail]
      omega
    · rw [List.length_tail]
      omega
  | outbound =>
    obtain ⟨-, -, -, -, fits⟩ := h.outbound state held dir
    rw [Purpose.writes_of_reads ((fits y own).1 deliver).1] at writes
    cases writes

/-- A read that ended OK has brought a word from memory (R62). -/
theorem AccountFits.read {y : Transaction} (own : x = some y) (deliver : y.delivery = .deliver)
    (reads : y.purpose.reads = true) (w : Word) : AccountFits { c with
      staging := c.staging ++ [w]
      memoryCount := c.memoryCount + 1 } none := by
  cases dir : d.direction with
  | inbound =>
    obtain ⟨-, -, -, fits⟩ := h.inbound state held dir
    have writes := ((fits y own).1 deliver).1
    rw [Purpose.writes_of_reads reads] at writes
    cases writes
  | outbound =>
    obtain ⟨given, bound, depth, -, fits⟩ := h.outbound state held dir
    have full := ((fits y own).1 deliver).2
    have flying : (waitedFor x).toNat = 1 := by simp [waitedFor, own, deliver]
    rw [flying] at bound depth
    simp only [full, Bool.false_eq_true, if_false] at depth
    have next := toNat_add_one (show c.memoryCount.toNat < d.count.toNat by omega) d.count.isLt
    refine .of_outbound state h.contents held dir ?_ ?_ ?_ (fun e => ?_) nofun
    · simp only [next, List.length_append, List.length_singleton]
      omega
    · simpa only [next, waitedFor, Option.any_none, Bool.toNat_false, Nat.add_zero] using bound
    · simpa [waitedFor] using depth
    · exact absurd (full.symm.trans e) (by simp)

end Words

/-- A data transaction is delivered only in a block (R107). -/
theorem AccountFits.block_of_data (h : AccountFits c x) (state : c.state = .running ∨ c.state = .halting)
    {y : Transaction} (own : x = some y) (deliver : y.delivery = .deliver) (data : ∀ n, y.purpose ≠ .descRead n) :
    ∃ d, c.contents = some (.transfer d) := by
  rcases state with running | halting
  · exact ((contentsFit_working (.inl running)).mp h.contents).2
  · rcases (contentsFit_halted (.inl halting)).mp h.contents with ⟨-, held⟩ | ⟨-, bare⟩
    · exact held
    · obtain ⟨⟨n, desc⟩, -⟩ := (transactionFits_fetch (.inr halting) bare y).mp (h.fits y own) deliver
      exact absurd desc (data n)

/-- A transfer descriptor accepted begins its block with no word moved (R6). -/
theorem AccountFits.accept (h : AccountFits c none) (state : c.state = .fetching) (d : Transfer) :
    AccountFits { c with
      state := .running
      contents := some (.transfer d)
      exchanged := 0
      memoryCount := 0
      short := false
      linkOnlyRun := 0
      stallCounter := 0 } none := by
  obtain ⟨resume, bare⟩ := (contentsFit_bare (.inl state)).mp h.contents
  have empty := h.staging_of_bare bare
  have contents := (contentsFit_working (c := { c with state := .running, contents := some (.transfer d) })
    (.inl rfl)).mpr ⟨resume, d, rfl⟩
  cases dir : d.direction with
  | inbound => exact .of_inbound (.inl rfl) contents rfl dir (by simp [empty]) (Nat.zero_le _) (by simp [empty]) nofun
  | outbound =>
    exact .of_outbound (.inl rfl) contents rfl dir (by simp [empty]) (Nat.zero_le _) (by simp [empty, waitedFor])
      (fun _ => empty) nofun

/-! ### A halt (R18, R19, R22) -/

/-- HALT keeps what the channel was at (R18). -/
theorem AccountFits.halt (h : AccountFits c x) (state : c.state = .fetching ∨ c.state = .running) :
    AccountFits { c with
      state := .halting
      resume := some (if c.state = .running then .running else .fetching) } x := by
  rcases state with state | state
  · obtain ⟨-, bare⟩ := (contentsFit_bare (.inl state)).mp h.contents
    refine .of_fetch (.inr rfl) ((contentsFit_halted (.inl rfl)).mpr (.inr ⟨by simp [state], bare⟩)) bare
      (h.staging_of_bare bare) fun y own => (transactionFits_fetch (.inl state) bare y).mp (h.fits y own)
  · obtain ⟨-, d, held, -⟩ := h.running state
    have contents : contentsFit { c with
        state := .halting
        resume := some (if c.state = .running then .running else .fetching) } :=
      (contentsFit_halted (.inl rfl)).mpr (.inl ⟨by simp [state], d, held⟩)
    cases dir : d.direction with
    | inbound =>
      obtain ⟨count, bound, depth, fits⟩ := h.inbound (.inl state) held dir
      exact .of_inbound (.inr rfl) contents held dir count bound depth fits
    | outbound =>
      obtain ⟨given, bound, depth, short, fits⟩ := h.outbound (.inl state) held dir
      exact .of_outbound (.inr rfl) contents held dir given bound depth short fits

/-- A channel comes to HALTED with nothing of its own in flight (R19). -/
theorem AccountFits.halted (h : AccountFits c x) (state : c.state = .halting) (idle : waitedFor x = false) :
    AccountFits { c with state := .halted } x where
  contents := (contentsFit_halted (.inr rfl)).mpr ((contentsFit_halted (.inl state)).mp h.contents)
  staged words := ⟨rfl, (h.staged words).2⟩
  account d _ held := h.account d (by rw [state]; rfl) held
  fits y own := by
    rw [transactionFits_halted rfl, delivery_of_not_waited idle own]
    rfl

/-- A HALTED channel awaits nothing (R19). -/
theorem AccountFits.idle_of_halted (h : AccountFits c x) (state : c.state = .halted) : waitedFor x = false := by
  rcases x with _ | y
  · rfl
  · have orphan := h.fits y rfl
    rw [transactionFits_halted state, beq_iff_eq] at orphan
    simp [waitedFor, orphan]

theorem transactionFits_orphan {y : Transaction} (orphan : y.delivery = .orphan) : transactionFits c y = true := by
  simp [transactionFits, orphan]

/-- CONTINUE takes a block up again (R22). -/
theorem AccountFits.resumed (h : AccountFits c x) (state : c.state = .halted) (back : c.resume = some .running) :
    AccountFits { c with state := .running, resume := none, stallCounter := 0 } x := by
  obtain ⟨d, held⟩ : ∃ d, c.contents = some (.transfer d) := by
    rcases (contentsFit_halted (.inr state)).mp h.contents with ⟨-, held⟩ | ⟨fetch, -⟩
    · exact held
    · cases back.symm.trans fetch
  exact .of_block ((contentsFit_working (.inl rfl)).mpr ⟨rfl, d, held⟩) rfl held
    (h.account d (by rw [state]; rfl) held) fun y own =>
      transactionFits_orphan (delivery_of_not_waited (h.idle_of_halted state) own)

/-! ### A grant (R104) -/

section Grant

variable (h : AccountFits c none) {y : Transaction}
include h

/-- A descriptor read is issued while a word is missing (R32). -/
theorem AccountFits.issueDesc (state : c.state = .fetching) (left : c.fetchProgress < 4) {n : ChannelNo}
    (desc : y.purpose = .descRead n) : AccountFits c (some y) := by
  obtain ⟨-, bare⟩ := (contentsFit_bare (.inl state)).mp h.contents
  exact .of_fetch (.inl state) h.contents bare (h.staging_of_bare bare) fun z own _ => by
    cases own
    exact ⟨⟨n, desc⟩, left⟩

variable (deliver : y.delivery = .deliver) (running : c.state = .running) (held : c.contents = some (.transfer d))
include deliver running held

/-- A data write is issued of a staged word (R58). -/
theorem AccountFits.issueWrite (dir : d.direction = .inbound) (staged : c.staging ≠ [])
    (writes : y.purpose.writes = true) : AccountFits c (some y) := by
  obtain ⟨count, bound, depth, -⟩ := h.inbound (.inl running) held dir
  exact .of_inbound (.inl running) h.contents held dir count bound depth fun z own => by
    cases own
    exact ⟨fun _ => ⟨writes, staged⟩, by rw [deliver]; simp⟩

/-- A data read is issued of a word that is missing, with room for it (R61). -/
theorem AccountFits.issueRead (dir : d.direction = .outbound) (below : c.memoryCount < d.count)
    (room : c.staging.length < 4) (full : c.short = false) (reads : y.purpose.reads = true) :
    AccountFits c (some y) := by
  obtain ⟨given, -, -, short, -⟩ := h.outbound (.inl running) held dir
  have flying : (waitedFor (some y)).toNat = 1 := by simp [waitedFor, deliver]
  refine .of_outbound (.inl running) h.contents held dir given ?_ ?_ short fun z own => ?_
  · rw [flying]
    exact BitVec.lt_def.mp below
  · rw [flying, full]
    exact room
  · cases own
    exact ⟨fun _ => ⟨reads, full⟩, fun discard => by rw [deliver] at discard; cases discard⟩

end Grant

end Sys2Proof.Machine
end

section
/-! SUPPORT. What an operation on behalf of one channel keeps of the account of its words and of the conversation on its
slot (for O56 and O58): R50, R51, R55, R56, R96, R107. -/

namespace Sys2Proof.Machine

-- The proofs are elaborated in turn: side by side their threads outgrow the check's memory limit.
set_option Elab.async false

variable {s t u : State} {n : ChannelNo} {c : Channel} {d : Transfer}

/-! ### One channel and its slot -/

/-- The account of channel `n`, with its own transaction. -/
def AccountAt (s : State) (n : ChannelNo) : Prop := AccountFits (s.channel n) (ownTransaction s n)

/-- The pins of a slot beside the request that stands there (R50). -/
structure PinsFit (l : Slot) (request : Option LinkRequest) : Prop where
  answer : l.answerValid → l.lines.isSome ∧ request = none
  early : l.early.isSome → l.answerValid

/-- No request stands in `c` that would have been answered on its arrival (R51, R53, R54). -/
structure Answered (c : Channel) : Prop where
  free : answersAtOnce c.state → c.request = none
  fail : c.request ≠ some .fail

theorem slotInv_iff :
    SlotInv s ↔ ∀ n, PinsFit (s.slot n) (s.channel n).request ∧ Answered (s.channel n) :=
  ⟨fun h n => ⟨⟨h.answer n, h.early n⟩, h.none n, h.fail n⟩,
    fun h => ⟨fun n => (h n).1.answer, fun n => (h n).1.early, fun n => (h n).2.free, fun n => (h n).2.fail⟩⟩

theorem Answered.of_none (answered : c.request = none) : Answered c := ⟨fun _ => answered, by simp [answered]⟩

/-- Where no answer is due none has been missed. -/
theorem Answered.of_not_due (h : requestDue c = false) : Answered c where
  free answers := by
    by_contra stands
    obtain ⟨r, request⟩ := Option.ne_none_iff_exists'.mp stands
    have due := requestDue_waiting request fun running => by rw [running] at answers; cases answers
    rw [h, answers] at due
    cases due
  fail request := by
    rw [requestDue_fail request] at h
    cases h

/-- What an operation on behalf of channel `n` keeps between `s` and `t`: the other channels with their slots and
transactions stay, and its own account and pins stay in order. -/
structure BlockWork (n : ChannelNo) (s t : State) : Prop where
  others : ∀ m, m ≠ n → t.channel m = s.channel m
  flight : ∀ m, m ≠ n → ownTransaction t m = ownTransaction s m
  slots : ∀ m, m ≠ n → t.slot m = s.slot m
  account : AccountAt s n → AccountAt t n
  pins : PinsFit (s.slot n) (s.channel n).request → PinsFit (t.slot n) (t.channel n).request

/-- What an event keeps (R55, R56, R96, R107; R50, R51, R53, R54). -/
structure BlockKept (s t : State) : Prop where
  account : AccountInv s → AccountInv t
  slots : SlotInv s → SlotInv t

theorem BlockKept.refl (s : State) : BlockKept s s := ⟨id, id⟩

theorem BlockKept.trans (h : BlockKept s t) (g : BlockKept t u) : BlockKept s u :=
  ⟨g.account ∘ h.account, g.slots ∘ h.slots⟩

/-- The two invariants look at the channels, the slots and the transaction in flight. -/
theorem BlockKept.of_tables (channels : t.channels = s.channels := by rfl) (slots : t.slots = s.slots := by rfl)
    (port : t.port = s.port := by rfl) : BlockKept s t where
  account h := accountInv_iff.mpr fun n => by
    rw [State.channel_of_channels _ _ channels, ownTransaction_of_port port]
    exact accountInv_iff.mp h n
  slots h := slotInv_iff.mpr fun n => by
    rw [State.channel_of_channels _ _ channels, State.slot_of_slots _ _ slots]
    exact slotInv_iff.mp h n

/-- A row that acts where its condition holds, and changes nothing elsewhere. -/
theorem BlockKept.ite {p : Prop} [Decidable p] (acts : p → BlockKept s t) : BlockKept s (if p then t else s) := by
  split
  · next h => exact acts h
  · exact .refl s

namespace BlockWork

theorem refl (s : State) : BlockWork n s s := ⟨fun _ _ => rfl, fun _ _ => rfl, fun _ _ => rfl, id, id⟩

theorem trans (h : BlockWork n s t) (g : BlockWork n t u) : BlockWork n s u where
  others m e := (g.others m e).trans (h.others m e)
  flight m e := (g.flight m e).trans (h.flight m e)
  slots m e := (g.slots m e).trans (h.slots m e)
  account := g.account ∘ h.account
  pins := g.pins ∘ h.pins

theorem of_tables (channels : t.channels = s.channels := by rfl) (slots : t.slots = s.slots := by rfl)
    (port : t.port = s.port := by rfl) : BlockWork n s t where
  others m _ := State.channel_of_channels _ _ channels
  flight m _ := ownTransaction_of_port port m
  slots m _ := State.slot_of_slots _ _ slots
  account h := by
    unfold AccountAt at h ⊢
    rwa [State.channel_of_channels _ _ channels, ownTransaction_of_port port]
  pins h := by rwa [State.channel_of_channels _ _ channels, State.slot_of_slots _ _ slots]

/-- The record of the channel becomes `c` and its slot `l`, whatever becomes of its own transaction. -/
theorem of_record (c : Channel) (l : Slot) (channels : t.channels = (s.putChannel n c).channels)
    (slots : t.slots = (s.putSlot n l).slots) (flight : ∀ m, m ≠ n → ownTransaction t m = ownTransaction s m)
    (account : AccountAt s n → AccountFits c (ownTransaction t n))
    (pins : PinsFit (s.slot n) (s.channel n).request → PinsFit l c.request) : BlockWork n s t where
  others m e := (State.channel_of_channels _ _ channels).trans (State.channel_putChannel_of_ne s n m c e)
  flight := flight
  slots m e := (State.slot_of_slots _ _ slots).trans (State.slot_putSlot_of_ne s n m l e)
  account h := by
    rw [AccountAt, State.channel_of_channels (s.putChannel n c) n channels, State.channel_putChannel_self]
    exact account h
  pins h := by
    rw [State.channel_of_channels (s.putChannel n c) n channels, State.channel_putChannel_self,
      State.slot_of_slots (s.putSlot n l) n slots, State.slot_putSlot_self]
    exact pins h

/-- The record of the channel is replaced, its request standing; without more said, by one that agrees with it on
what the account looks at. -/
theorem putChannel (s : State) (n : ChannelNo) (c : Channel)
    (account : AccountAt s n → AccountFits c (ownTransaction s n) := by
      exact fun h => ⟨h.contents, h.staged, h.account, h.fits⟩)
    (request : c.request = (s.channel n).request := by rfl) : BlockWork n s (s.putChannel n c) :=
  of_record c (s.slot n) rfl (by rw [State.putSlot_slot]; rfl) (fun _ _ => rfl) account fun h => request ▸ h

/-! ### The shared operations -/

/-- An answer takes the request away, and the record becomes `c` (R50). -/
theorem answers (s : State) (n : ChannelNo) (a : Answer) {c : Channel} (none : c.request = none)
    (account : AccountAt s n → AccountFits c (ownTransaction s n)) : BlockWork n s (answeredWaiting s n a c) :=
  of_record c _ rfl rfl (fun _ _ => rfl) account fun h =>
    ⟨fun up => ⟨up, none⟩, fun early => (h.answer (h.early early)).1⟩

theorem pinsFit_turnedAway {l : Slot} {q : Option LinkRequest} (h : PinsFit l q) :
    PinsFit (turnedAwaySlot l q) none := by
  cases q with
  | none => exact h
  | some r => exact ⟨fun up => ⟨up, rfl⟩, fun early => (h.answer (h.early early)).1⟩

theorem turnAway (s : State) (n : ChannelNo) : BlockWork n s (turnAway n s) := by
  rw [turnAway_eq]
  exact of_record _ _ rfl rfl (fun _ _ => rfl) (fun h => h.of_record) pinsFit_turnedAway

/-- The channel abandons its transaction as its record becomes `c` (R96). -/
theorem abandons {l : Slot} (channels : t.channels = (s.putChannel n c).channels)
    (slots : t.slots = (s.putSlot n l).slots) (port : t.port = abandonedPort n s.port)
    (account : AccountAt s n → AccountFits c ((ownTransaction s n).map Transaction.abandoned))
    (pins : PinsFit (s.slot n) (s.channel n).request → PinsFit l c.request) : BlockWork n s t :=
  of_record c l channels slots (fun _ e => ownTransaction_discard_of_ne port e)
    (fun h => by rw [ownTransaction_discard port]; exact account h) pins

/-- FAULTED asks nothing of what was before it (R11). -/
theorem putAndFault (s : State) (n : ChannelNo) (c : Channel) (k : FaultKind)
    (request : c.request = (s.channel n).request := by rfl) :
    BlockWork n s (enterFaulted n k (s.putChannel n c)) := by
  have record : ((s.putChannel n c).putChannel n (faultedChannel (s.putChannel n c) n k)).channels =
      (s.putChannel n (faultedChannel (s.putChannel n c) n k)).channels := by rw [State.putChannel_putChannel]
  rw [enterFaulted_eq, State.channel_putChannel_self, request]
  exact abandons (c := faultedChannel (s.putChannel n c) n k) record rfl rfl
    (fun _ => .of_aside rfl ((contentsFit_faulted rfl).mpr rfl) rfl (noDelivery_abandoned _)) pinsFit_turnedAway

theorem enterFaulted (s : State) (n : ChannelNo) (k : FaultKind) : BlockWork n s (enterFaulted n k s) := by
  simpa using putAndFault s n (s.channel n) k

/-- ABORTING asks nothing of what was before it (R24). -/
theorem enterAborting (s : State) (n : ChannelNo) : BlockWork n s (enterAborting n s) := by
  rw [enterAborting_eq]
  exact abandons (c := { (s.channel n).toAborting with request := none }) rfl rfl rfl
    (fun _ => .of_aside rfl ((contentsFit_bare (.inr (.inr (.inr rfl)))).mpr ⟨rfl, rfl⟩) rfl (noDelivery_abandoned _))
    pinsFit_turnedAway

theorem makePost (s : State) (n : ChannelNo) (k : EventKind) (words : BitVec 16) :
    BlockWork n s (makePost n k words s) := by
  rcases Nat.lt_or_ge s.queue.records.length 24 with room | full
  · rw [makePost_of_room s n k words room]
    exact .of_tables
  · rw [makePost_of_full s n k words full]
    exact (putChannel s n { s.channel n with pendingEvent := some (postedRecord s n k words) }).trans .of_tables

theorem completeChannelCommand (s : State) (n : ChannelNo) (cmd : HostCommand) (r : ResultCode) :
    BlockWork n s (completeChannelCommand cmd n r s) := by
  rw [completeChannelCommand_eq]
  split
  · exact .of_tables
  · exact refl s

/-! ### Links and the settling sequence (R39, R41 to R45) -/

/-- A fetch begins at a channel whose record has become `c` (R5). -/
theorem putAndFetch (s : State) (n : ChannelNo) (c : Channel) (addr : PhysAddr)
    (departs : AccountAt s n → Departs c (ownTransaction s n))
    (request : c.request = (s.channel n).request := by rfl) :
    BlockWork n s (enterFetching n addr (s.putChannel n c)) := by
  simp only [enterFetching, State.channel_putChannel_self, State.putChannel_putChannel]
  exact putChannel s n _ (fun h => .of_begun rfl (departs h).resume rfl (departs h).empty (departs h).none) request

theorem putAndFollow (s : State) (n : ChannelNo) (c : Channel) (addr : PhysAddr)
    (departs : AccountAt s n → Departs c (ownTransaction s n))
    (request : c.request = (s.channel n).request := by rfl) :
    BlockWork n s (Machine.followLink n addr (s.putChannel n c)) := by
  unfold Machine.followLink
  split
  · exact putAndFetch s n c addr departs request
  · rw [State.channel_putChannel_self, State.putChannel_putChannel]
    exact putAndFault s n { c with descAddr := addr } _ request

theorem followLink (s : State) (n : ChannelNo) (addr : PhysAddr)
    (departs : AccountAt s n → Departs (s.channel n) (ownTransaction s n)) :
    BlockWork n s (followLink n addr s) := by
  simpa using putAndFollow s n (s.channel n) addr departs

/-- A post changes nothing that the account looks at. -/
theorem accountAt_makePost {k : EventKind} {words : BitVec 16} :
    AccountAt (Machine.makePost n k words s) n ↔ AccountAt s n := by
  obtain ⟨p, record⟩ := makePost_channel s n n k words
  obtain ⟨table, q, frame⟩ := makePost_frame s n k words
  rw [AccountAt, AccountAt, record, ownTransaction_of_port (by rw [frame]) n]
  exact ⟨fun h => ⟨h.contents, h.staged, h.account, h.fits⟩, fun h => ⟨h.contents, h.staged, h.account, h.fits⟩⟩

/-- Channel `n` is about to settle its block, if its account is in order. -/
def SettlesAt (s : State) (n : ChannelNo) : Prop := AccountAt s n → Settles (s.channel n) (ownTransaction s n)

theorem SettlesAt.makePost (settles : SettlesAt s n) (k : EventKind) (words : BitVec 16) :
    SettlesAt (Machine.makePost n k words s) n := fun h => by
  have settles := settles (accountAt_makePost.mp h)
  obtain ⟨p, record⟩ := makePost_channel s n n k words
  obtain ⟨table, q, frame⟩ := makePost_frame s n k words
  rw [record, ownTransaction_of_port (by rw [frame]) n]
  exact ⟨⟨settles.resume, settles.empty, settles.none⟩, settles.held⟩

/-- A settled block leaves its channel with nothing staged (R41 to R45). -/
theorem settlingEnds (ends : SettlingEnds n s t) (settles : SettlesAt s n) : BlockWork n s t := by
  cases ends with
  | follows addr => exact followLink s n addr fun h => (settles h).toDeparts
  | waits step =>
    exact putChannel s n _ fun h => .of_aside rfl
      ((contentsFit_working (.inr (.inl ⟨step, rfl⟩))).mpr ⟨(settles h).resume, (settles h).held⟩)
      (settles h).empty (settles h).none
  | holds words =>
    have settles := settles.makePost .held words
    exact (makePost s n _ _).trans (putChannel _ n _ fun h => .of_aside rfl
      ((contentsFit_working (.inr (.inr rfl))).mpr ⟨(settles h).resume, (settles h).held⟩)
      (settles h).empty (settles h).none)
  | ends words =>
    have settles := settles.makePost .chainEnd words
    exact (makePost s n _ _).trans (putChannel _ n _ fun h => .of_aside rfl
      ((contentsFit_bare (.inr (.inl rfl))).mpr ⟨(settles h).resume, rfl⟩) (settles h).empty (settles h).none)

theorem settleFrom (s : State) (n : ChannelNo) (step : SettlingStep) (d : Transfer) (settles : SettlesAt s n) :
    BlockWork n s (settleFrom n step d s) := by
  rcases settleFrom_ends s n step d with ends | ⟨k, words, ends⟩
  · exact settlingEnds ends settles
  · exact (makePost s n k words).trans (settlingEnds ends (settles.makePost k words))

/-! ### The end of an event at a channel -/

theorem completeBlock (s : State) (n : ChannelNo) : BlockWork n s (completeBlock n s) := by
  unfold Machine.completeBlock
  split
  · exact refl s
  · next d due =>
    obtain ⟨running, held⟩ := completedBlock_some s n due
    refine settleFrom s n .report d fun h => AccountFits.settles_of_complete h running held ?_
    by_contra more
    rw [← channelInFlight_eq] at more
    rw [(completedBlock_eq_none running held).mpr more] at due
    cases due

theorem resumeSettling (s : State) (n : ChannelNo) : BlockWork n s (resumeSettling n s) := by
  unfold Machine.resumeSettling
  split
  · exact refl s
  · next step d due =>
    exact settleFrom s n step d fun h => AccountFits.settles h (.inl ⟨step, (resumedStep_some s n due).1⟩)

theorem leaveHalting (s : State) (n : ChannelNo) : BlockWork n s (leaveHalting n s) := by
  unfold Machine.leaveHalting
  split
  · next due =>
    obtain ⟨table, q, frame⟩ := makePost_frame s n .halted (haltedWordsDone (s.channel n))
    have own := ownTransaction_of_port (s := s) (t := Machine.makePost n .halted (haltedWordsDone (s.channel n)) s)
      (by rw [frame]) n
    have idle : waitedFor (ownTransaction s n) = false := by
      simp only [leaveHaltingDue, Bool.and_eq_true, Bool.not_eq_true', channelInFlight_eq] at due
      exact due.1.2
    exact (makePost s n _ _).trans ((putChannel _ n _ fun h => AccountFits.halted h
      (by rw [makePost_state, halting_of_due due]) (by rw [own, idle])).trans (completeChannelCommand _ n _ _))
  · exact refl s

theorem leaveAborting (s : State) (n : ChannelNo) : BlockWork n s (leaveAborting n s) := by
  unfold Machine.leaveAborting
  split
  · next due =>
    have aborting := aborting_of_due due
    refine (makePost s n _ _).trans ((putChannel _ n _ fun h => ?_).trans (completeChannelCommand _ n _ _))
    have state := (makePost_state s n n .aborted ((s.channel n).abortWordsDone.getD 0)).trans aborting
    have aside : isAside ((Machine.makePost n .aborted ((s.channel n).abortWordsDone.getD 0) s).channel n).state :=
      by rw [state]; rfl
    obtain ⟨resume, bare⟩ := (contentsFit_bare (.inr (.inr (.inr state)))).mp (AccountFits.contents h)
    have empty := AccountFits.staging_of_bare h bare
    exact .of_aside rfl ((contentsFit_bare (.inr (.inl rfl))).mpr ⟨resume, bare⟩) empty
      (AccountFits.noDelivery h aside)
  · exact refl s

theorem meetEnd (s : State) (n : ChannelNo) (d : Transfer) (running : (s.channel n).state = .running)
    (held : (s.channel n).contents = some (.transfer d)) : BlockWork n s (meetEnd n d s) := by
  cases missing : endsShort (s.channel n) d with
  | false =>
    rw [meetEnd_of_done missing]
    exact answers s n _ rfl fun h => AccountFits.of_record h
  | true =>
    rw [meetEnd_of_missing missing]
    cases dir : d.direction with
    | inbound => exact answers s n _ rfl fun h => AccountFits.endInbound h held running dir
    | outbound =>
      exact abandons rfl rfl rfl (fun h => AccountFits.endOutbound h held running dir) fun h =>
        ⟨fun up => ⟨up, rfl⟩, fun early => (h.answer (h.early early)).1⟩

theorem meetInRunning (s : State) (n : ChannelNo) (d : Transfer) (r : LinkRequest)
    (running : (s.channel n).state = .running) (held : (s.channel n).contents = some (.transfer d)) :
    BlockWork n s (meetInRunning n d r s) := by
  cases r with
  | offer w =>
    cases dir : d.direction with
    | inbound =>
      cases take : canTake (s.channel n) d with
      | false =>
        rw [show Machine.meetInRunning n d (.offer w) s = s by simp [Machine.meetInRunning, dir, take]]
        exact refl s
      | true =>
        rw [meetInRunning_take w dir take]
        exact answers s n _ rfl fun h => AccountFits.take h held running dir take w
    | outbound =>
      rw [meetInRunning_wrong (.inl ⟨⟨w, rfl⟩, dir⟩)]
      exact enterFaulted s n _
  | ask =>
    cases dir : d.direction with
    | inbound =>
      rw [meetInRunning_wrong (.inr ⟨rfl, dir⟩)]
      exact enterFaulted s n _
    | outbound =>
      cases staged : (s.channel n).staging with
      | nil =>
        rw [show Machine.meetInRunning n d .ask s = s by simp [Machine.meetInRunning, dir, staged]]
        exact refl s
      | cons w rest =>
        rw [meetInRunning_give dir staged]
        exact answers s n _ rfl fun h => AccountFits.give h held running dir staged
  | endBlock => exact meetEnd s n d running held
  | fail => exact enterFaulted s n _

theorem meetWhileWaiting (s : State) (n : ChannelNo) (r : LinkRequest) :
    BlockWork n s (meetWhileWaiting n r s) := by
  cases r with
  | fail => exact enterFaulted s n _
  | offer | ask | endBlock => exact refl s

theorem meetRequest (s : State) (n : ChannelNo) : BlockWork n s (meetRequest n s) := by
  unfold Machine.meetRequest
  dsimp only
  cases (s.channel n).request with
  | none => exact refl s
  | some r =>
    cases state : (s.channel n).state with
    | disabled | idle | aborting | faulted => exact turnAway s n
    | fetching | settling _ | holding | halting | halted => exact meetWhileWaiting s n r
    | running =>
      rcases held : (s.channel n).contents with _ | (d | a)
      · exact meetWhileWaiting s n r
      · exact meetInRunning s n d r state held
      · exact meetWhileWaiting s n r

theorem carryOn (s : State) (n : ChannelNo) : BlockWork n s (carryOn n s) :=
  (resumeSettling s n).trans <| (leaveHalting _ n).trans <| (leaveAborting _ n).trans <|
    (completeBlock _ n).trans <| (meetRequest _ n).trans <| (completeBlock _ n).trans (meetRequest _ n)

/-! ### The whole of an event -/

/-- An operation that leaves no request unanswered that its channel answers on arrival. -/
theorem kept (w : BlockWork n s t) (answered : Answered (s.channel n) → Answered (t.channel n)) : BlockKept s t where
  account h := accountInv_iff.mpr fun m => by
    have fits := accountInv_iff.mp h m
    by_cases e : m = n
    · subst e
      exact w.account fits
    · rw [w.others m e, w.flight m e]
      exact fits
  slots h := slotInv_iff.mpr fun m => by
    obtain ⟨pins, stands⟩ := slotInv_iff.mp h m
    by_cases e : m = n
    · subst e
      exact ⟨w.pins pins, answered stands⟩
    · rw [w.others m e, w.slots m e]
      exact ⟨pins, stands⟩

/-- When a channel has gone on, every request is answered that can be (R52). -/
theorem goesOn (w : BlockWork n s t) : BlockKept s (Machine.carryOn n t) :=
  (w.trans (carryOn t n)).kept fun _ => .of_not_due (carryOn_quiet t n).request

end BlockWork

theorem BlockKept.enterFaulted (s : State) (n : ChannelNo) (k : FaultKind) : BlockKept s (enterFaulted n k s) :=
  (BlockWork.enterFaulted s n k).kept fun _ => .of_none (by simp [channel_enterFaulted, faultedChannel])

/-- A record replaced beside the link. -/
theorem BlockKept.putChannel (s : State) (n : ChannelNo) (c : Channel)
    (account : AccountAt s n → AccountFits c (ownTransaction s n) := by
      exact fun h => ⟨h.contents, h.staged, h.account, h.fits⟩)
    (request : c.request = (s.channel n).request := by rfl)
    (state : answersAtOnce c.state → answersAtOnce (s.channel n).state := by exact id) :
    BlockKept s (s.putChannel n c) :=
  (BlockWork.putChannel s n c account request).kept fun h => by
    rw [State.channel_putChannel_self]
    exact ⟨fun answers => request.trans (h.free (state answers)), by rw [request]; exact h.fail⟩

end Sys2Proof.Machine
end

section
/-! SUPPORT. What the end of an event, the link and the completions keep of the account of the words and of the
conversations of the slots (for O56 and O58). -/

namespace Sys2Proof.Machine

-- The proofs are elaborated in turn: side by side their threads outgrow the check's memory limit.
set_option Elab.async false

variable {s t : State} {n : ChannelNo} {c : Channel} {d : Transfer} {r : ChannelRequest}

/-! ### The requests of the channels (R32, R58, R61) -/

theorem channelRequest_of_eligible (request : eligibleRequest s n = some r) : channelRequest s n = some r := by
  unfold eligibleRequest at request
  split at request
  · next presents => rw [presents, request]
  · next presents =>
    split at request
    · rw [presents, request]
    · cases request
  · cases request

/-- A channel asks for a descriptor word in FETCHING, and for a data transaction in RUNNING (R32, R58, R61). -/
theorem channelRequest_some (request : channelRequest s n = some r) :
    ((s.channel n).state = .fetching ∧ (s.channel n).fetchProgress < 4 ∧ ∃ addr, r = .desc addr) ∨
      (s.channel n).state = .running ∧ ∃ d, (s.channel n).contents = some (.transfer d) ∧
        dataRequest (s.channel n) d = some r := by
  unfold channelRequest at request
  dsimp only at request
  split at request
  · cases request
  · split at request
    · next fetching =>
      split at request
      · next left =>
        cases request
        exact .inl ⟨fetching, left, _, rfl⟩
      · cases request
    · next running =>
      split at request
      · next d held => exact .inr ⟨running, d, held, request⟩
      · cases request
    · cases request

/-- A data write is asked of a staged word, and a data read of a missing word for which there is room (R58, R61). -/
theorem dataRequest_some (request : dataRequest c d = some r) :
    (d.direction = .inbound ∧ c.staging ≠ [] ∧ ∃ logical w, r = .write logical w) ∨
      d.direction = .outbound ∧ c.memoryCount < d.count ∧ c.staging.length < 4 ∧ c.short = false ∧
        ∃ logical, r = .read logical := by
  unfold dataRequest at request
  split at request
  · next dir =>
    obtain ⟨w, head, eq⟩ := Option.map_eq_some_iff.mp request
    have staged : c.staging ≠ [] := fun empty => by
      rw [empty] at head
      cases head
    exact .inl ⟨dir, staged, _, _, eq.symm⟩
  · next dir =>
    split at request
    · next asks =>
      obtain ⟨below, room, full⟩ := asks
      cases request
      exact .inr ⟨dir, below, room, full, _, rfl⟩
    · cases request

/-! ### The grant (R99 to R104) -/

/-- A transaction issued is in account with the channel that requested it. -/
theorem BlockKept.issued {y : Transaction} (free : s.port.inFlight = none) (flight : t.port.inFlight = some y)
    (own : ∀ n, y.purpose.requester = some n → AccountFits (s.channel n) none → AccountFits (s.channel n) (some y))
    (channels : t.channels = s.channels := by rfl) (slots : t.slots = s.slots := by rfl) : BlockKept s t where
  account h := accountInv_iff.mpr fun m => by
    have fits := accountInv_iff.mp h m
    rw [ownTransaction_of_free free] at fits
    rw [State.channel_of_channels _ _ channels]
    by_cases requester : y.purpose.requester = some m
    · rw [ownTransaction_eq_some.mpr ⟨flight, requester⟩]
      exact own m requester fits
    · rw [ownTransaction_of_other flight requester]
      exact fits
  slots h := slotInv_iff.mpr fun n => by
    rw [State.channel_of_channels _ _ channels, State.slot_of_slots _ _ slots]
    exact slotInv_iff.mp h n

/-- A transaction of the map loader or of the log writer is none of a channel's (R96). -/
theorem BlockKept.issuedBeside {y : Transaction} (free : s.port.inFlight = none) (flight : t.port.inFlight = some y)
    (none : y.purpose.requester = none) (channels : t.channels = s.channels := by rfl)
    (slots : t.slots = s.slots := by rfl) : BlockKept s t :=
  .issued free flight (fun n requester => by rw [none] at requester; cases requester) channels slots

/-- A data request granted is issued in account, or faults its channel (R79, R104). -/
theorem BlockKept.grantData {m : SetNo} {logical : LogAddr} {a : Access} {purpose : PageNo → Purpose}
    (free : s.port.inFlight = none) (requester : ∀ p, (purpose p).requester = some n)
    (own : ∀ p addr, AccountFits (s.channel n) none → AccountFits (s.channel n) (some ⟨purpose p, addr, .deliver⟩)) :
    (∃ t, grantData n m logical a purpose s = .issued t ∧ BlockKept s t) ∨
      ∃ k, grantData n m logical a purpose s = .refused (Machine.enterFaulted n k s) := by
  unfold Machine.grantData
  split
  · next p addr _ =>
    refine .inl ⟨_, rfl, .issued free rfl fun m named => ?_⟩
    rw [requester p] at named
    cases named
    exact own p addr
  · next k _ => exact .inr ⟨k, rfl⟩

/-- An eligible request granted is issued in account, or faults its channel (R79, R104). -/
theorem BlockKept.grantChannel (free : s.port.inFlight = none) (request : eligibleRequest s n = some r) :
    (∃ t, grantChannel n r s = .issued t ∧ BlockKept s t) ∨
      ∃ k, grantChannel n r s = .refused (Machine.enterFaulted n k s) := by
  rcases channelRequest_some (channelRequest_of_eligible request) with
    ⟨fetching, left, addr, rfl⟩ | ⟨running, d, held, data⟩
  · refine .inl ⟨_, rfl, .issued free rfl fun m named h => ?_⟩
    cases named
    exact h.issueDesc fetching left rfl
  · rcases dataRequest_some data with ⟨dir, staged, logical, w, rfl⟩ | ⟨dir, below, room, full, logical, rfl⟩
    · obtain ⟨m, bound, -⟩ := readySet_of_eligible request (by simp)
      simp only [Machine.grantChannel, bound]
      exact grantData free (fun _ => rfl) fun _ _ h => h.issueWrite rfl running held dir staged rfl
    · obtain ⟨m, bound, -⟩ := readySet_of_eligible request (by simp)
      simp only [Machine.grantChannel, bound]
      exact grantData free (fun _ => rfl) fun _ _ h => h.issueRead rfl running held dir below room full rfl

theorem BlockKept.grantChannels (k : Nat) : ∀ s : State, canGrant s = true → BlockKept s (grantChannels k s) := by
  induction k with
  | zero => exact fun s _ => .refl s
  | succ k ih =>
    intro s can
    unfold Machine.grantChannels
    split
    · exact .refl s
    · split
      · exact .refl s
      · next n _ _ r request =>
        rcases grantChannel (free_of_canGrant can) request with ⟨t, granted, kept⟩ | ⟨kind, refused⟩
        · rw [granted]
          exact kept
        · rw [refused]
          exact (enterFaulted s n kind).trans (ih _ (canGrant_enterFaulted n kind can))

theorem BlockKept.arbitrate (s : State) : BlockKept s (arbitrate s) := by
  unfold Machine.arbitrate
  split
  · next can =>
    have free := free_of_canGrant can
    split
    · exact .issuedBeside free rfl rfl
    · split
      · exact .issuedBeside free rfl rfl
      · exact grantChannels 17 s can
  · exact .refl s

/-! ### The end of an event (R106) -/

theorem BlockKept.endDrain (s : State) : BlockKept s (endDrain s) := by
  unfold Machine.endDrain
  split
  · exact .refl s
  · exact .of_tables

theorem BlockKept.endWriteEntry (s : State) : BlockKept s (endWriteEntry s) := by
  unfold Machine.endWriteEntry
  split
  · exact .refl s
  · exact .of_tables

theorem BlockKept.endLogStop (s : State) : BlockKept s (endLogStop s) := .ite fun _ => .of_tables

theorem BlockKept.beginRingRecord (s : State) : BlockKept s (beginRingRecord s) := by
  unfold Machine.beginRingRecord
  split
  · exact .refl s
  · exact .of_tables

theorem BlockKept.beginOverflowRecord (s : State) : BlockKept s (beginOverflowRecord s) := by
  unfold Machine.beginOverflowRecord
  split
  · exact .refl s
  · exact .of_tables

theorem BlockKept.logWork (s : State) : BlockKept s (logWork s) :=
  (endLogStop s).trans ((beginRingRecord _).trans (beginOverflowRecord _))

theorem BlockKept.refreshInterrupts (s : State) : BlockKept s (refreshInterrupts s) := .of_tables

theorem BlockKept.finishEvent (h : BlockKept s t) : BlockKept s (finishEvent t) :=
  h.trans <| (endDrain t).trans <| (endWriteEntry _).trans <| (logWork _).trans <| (arbitrate _).trans <|
    (logWork _).trans <| (arbitrate _).trans (refreshInterrupts _)

theorem BlockWork.finishChannelEvent (w : BlockWork n s t) : BlockKept s (finishChannelEvent n t) :=
  w.goesOn.finishEvent

/-! ### The link (R50, R51) -/

/-- The lines or the answer of a slot change while the channel's request stands as it did (R50). -/
theorem BlockKept.putSlot (s : State) (n : ChannelNo) (l : Slot)
    (pins : PinsFit (s.slot n) (s.channel n).request → PinsFit l (s.channel n).request) :
    BlockKept s (s.putSlot n l) :=
  (BlockWork.of_record (s.channel n) l (by rw [State.putChannel_channel]; rfl) rfl (fun _ _ => rfl) id pins).kept id

/-- Nothing is kept on a slot whose answer valid is not raised (R50). -/
theorem PinsFit.early_none {l : Slot} {q : Option LinkRequest} (h : PinsFit l q) (down : l.answerValid = false) :
    l.early = none := by
  rw [← Option.not_isSome_iff_eq_none]
  intro early
  rw [h.early early] at down
  cases down

/-- The pins of a slot whose answer valid is not raised fit any request. -/
theorem pinsFit_down {l : Slot} {q : Option LinkRequest} (down : l.answerValid = false) (early : l.early = none) :
    PinsFit l q where
  answer up := by rw [down] at up; cases up
  early some := by rw [early] at some; cases some

/-- A request arrives on a slot whose answer valid is not raised. -/
theorem BlockKept.present (s : State) (n : ChannelNo) (q : LinkRequest) (l : Slot)
    (pins : PinsFit (s.slot n) (s.channel n).request → l.answerValid = false ∧ l.early = none) :
    BlockKept s (present n q (s.putSlot n l)) := by
  have record : BlockWork n s ((s.putSlot n l).putChannel n { s.channel n with request := some q }) :=
    .of_record { s.channel n with request := some q } l rfl rfl (fun _ _ => rfl) (fun h => AccountFits.of_record h)
      fun h => pinsFit_down (pins h).1 (pins h).2
  exact record.goesOn

theorem BlockKept.keepEarly (s : State) (n : ChannelNo) (q : LinkRequest) (shown : (s.slot n).answerValid) :
    BlockKept s (keepEarly n q s) :=
  .putSlot s n _ fun h => ⟨fun up => h.answer up, fun _ => shown⟩

theorem BlockKept.arrive (s : State) (n : ChannelNo) (q : LinkRequest) : BlockKept s (arrive n q s) := by
  unfold Machine.arrive
  split
  · next shown => exact keepEarly s n q shown
  · next down =>
    have down : (s.slot n).answerValid = false := by simpa using down
    split
    · exact .putSlot s n _ fun h => pinsFit_down down (h.early_none down)
    · exact .present s n q _ fun h => ⟨down, h.early_none down⟩

theorem BlockKept.arriveFail (s : State) (n : ChannelNo) : BlockKept s (arriveFail n s) := by
  unfold Machine.arriveFail
  split
  · next shown => exact keepEarly s n .fail shown
  · next down =>
    have down : (s.slot n).answerValid = false := by simpa using down
    exact .present s n .fail _ fun h => ⟨down, h.early_none down⟩

theorem BlockKept.lowerRequestValid (s : State) (n : ChannelNo) : BlockKept s (lowerRequestValid n s) := by
  unfold Machine.lowerRequestValid
  dsimp only
  split
  · split
    · next none => exact .putSlot s n _ fun _ => pinsFit_down rfl none
    · exact .present s n _ _ fun _ => ⟨rfl, rfl⟩
  · next down =>
    have down : (s.slot n).answerValid = false := by simpa using down
    exact .putSlot s n _ fun h => pinsFit_down down (h.early_none down)

end Sys2Proof.Machine
end

section
/-! SUPPORT. What the completions keep of the account of the words and of the conversations of the slots (for O56 and
O58): R34, R59, R60, R62, R106 to R108. -/

namespace Sys2Proof.Machine

-- The proofs are elaborated in turn: side by side their threads outgrow the check's memory limit.
set_option Elab.async false

variable {s t a : State} {n : ChannelNo} {y : Transaction}

/-! ### A channel's transaction ends (R106) -/

/-- The part is rid of the transaction `y` of channel `n` between `s` and `a`, and its channels and slots stay. -/
structure EndsFlight (n : ChannelNo) (y : Transaction) (s a : State) : Prop where
  flight : s.port.inFlight = some y
  requester : y.purpose.requester = some n
  free : a.port.inFlight = none := by rfl
  channels : a.channels = s.channels := by rfl
  slots : a.slots = s.slots := by rfl

namespace EndsFlight

theorem own (e : EndsFlight n y s a) : ownTransaction s n = some y :=
  ownTransaction_eq_some.mpr ⟨e.flight, e.requester⟩

theorem channel (e : EndsFlight n y s a) (m : ChannelNo) : a.channel m = s.channel m :=
  State.channel_of_channels _ _ e.channels

/-- The record of the channel becomes `c` as its transaction ends. -/
theorem record (e : EndsFlight n y s a) (c : Channel)
    (account : AccountFits (s.channel n) (some y) → AccountFits c none)
    (request : c.request = (s.channel n).request := by rfl) : BlockWork n s (a.putChannel n c) := by
  have gone := ownTransaction_of_free (s := a.putChannel n c) e.free
  refine .of_record c (s.slot n) (by simp only [State.putChannel, e.channels])
    (by rw [State.putSlot_slot]; exact e.slots) (fun m other => ?_) (fun h => ?_) fun h => request ▸ h
  · rw [gone]
    exact (ownTransaction_of_other e.flight fun named => other (Option.some.inj (named.symm.trans e.requester))).symm
  · rw [AccountAt, e.own] at h
    rw [gone]
    exact account h

theorem work (e : EndsFlight n y s a) : BlockWork n s a := by
  have kept := e.record (s.channel n) AccountFits.freed
  rwa [← e.channel n, State.putChannel_channel] at kept

/-- The completion is handed back: delivered, or its end alone, or nothing (R106). -/
theorem handBack (e : EndsFlight n y s a) {deliver : State → State}
    (delivered : y.delivery = .deliver → BlockWork n s (deliver a)) :
    BlockKept s (handBack n y.delivery deliver a) := by
  unfold Machine.handBack
  cases how : y.delivery with
  | deliver => exact (delivered how).goesOn
  | discard => exact e.work.goesOn
  | orphan =>
    refine e.work.kept fun answered => ?_
    rw [e.channel n]
    exact answered

end EndsFlight

/-! ### Descriptor reads (R6, R34, R36, R40) -/

section Descriptor

variable (free : s.port.inFlight = none)
include free

theorem BlockWork.putFreed (n : ChannelNo) (c : Channel)
    (account : AccountFits (s.channel n) none → AccountFits c none)
    (request : c.request = (s.channel n).request := by rfl) : BlockWork n s (s.putChannel n c) :=
  .putChannel s n c (by rw [AccountAt, ownTransaction_of_free free]; exact account) request

/-- The words fetched are none of the account. -/
theorem BlockWork.putFetchedWords (n : ChannelNo) (p : BitVec 3) (words : List Word) :
    BlockWork n s (s.putChannel n { s.channel n with fetchProgress := p, fetched := words }) :=
  putFreed free n _ fun h => ⟨h.contents, h.staged, h.account, nofun⟩

theorem BlockWork.acceptDescriptor (words : List Word) (fetching : (s.channel n).state = .fetching) :
    BlockWork n s (acceptDescriptor n words s) := by
  unfold Machine.acceptDescriptor
  split
  · exact enterFaulted s n _
  · next d _ => exact putFreed free n _ fun h => h.accept fetching d
  · next link _ =>
    unfold acceptLinkOnly
    dsimp only
    split
    · refine putAndFollow s n _ link fun h => ?_
      obtain ⟨resume, bare⟩ := (contentsFit_bare (.inl fetching)).mp (AccountFits.contents h)
      rw [ownTransaction_of_free free]
      exact ⟨resume, AccountFits.staging_of_bare (c := s.channel n) h bare, noDelivery_none⟩
    · exact putAndFault s n _ _

theorem BlockWork.descWordArrives (w : Word) (fetching : (s.channel n).state = .fetching) :
    BlockWork n s (descWordArrives n w s) := by
  have kept : BlockWork n s (keepDescWord n w s) := putFetchedWords free n _ _
  unfold Machine.descWordArrives
  dsimp only
  split
  · have dropped : BlockWork n (keepDescWord n w s) (dropFetched n (keepDescWord n w s)) :=
      putFetchedWords (s := keepDescWord n w s) free n _ []
    have still : ((dropFetched n (keepDescWord n w s)).channel n).state = .fetching := by
      simpa [dropFetched, keepDescWord] using fetching
    exact (kept.trans dropped).trans (acceptDescriptor (s := dropFetched n (keepDescWord n w s)) free _ still)
  · exact kept

theorem BlockWork.deliverDescRead (n : ChannelNo) (r : BusRead) : BlockWork n s (deliverDescRead n r s) := by
  unfold Machine.deliverDescRead
  split
  · next fetching =>
    split
    · exact descWordArrives free _ fetching
    · exact enterFaulted s n _
  · split
    · exact putFetchedWords free n _ _
    · exact enterFaulted s n _
  · exact refl s

end Descriptor

theorem BlockKept.completeDescRead (s : State) (r : BusRead) : BlockKept s (completeDescRead r s) := by
  unfold Machine.completeDescRead
  split
  · next n addr d flight =>
    have ends : EndsFlight n ⟨.descRead n, addr, d⟩ s (freePort s) := ⟨flight, rfl, rfl, rfl, rfl⟩
    exact (ends.handBack fun _ => ends.work.trans (.deliverDescRead rfl n r)).finishEvent
  · exact .refl s

/-! ### Data transactions (R59, R60, R62) -/

theorem takesData_iff {x : ChannelState} : takesData x = true ↔ x = .running ∨ x = .halting := by
  cases x <;> simp [takesData]

namespace EndsFlight

variable (e : EndsFlight n y s a) (deliver : y.delivery = .deliver)
include e deliver

theorem deliverDataWrite (writes : y.purpose.writes = true) (r : BusWrite) :
    BlockWork n s (deliverDataWrite n r a) := by
  unfold Machine.deliverDataWrite
  split
  · next takes =>
    rw [e.channel n, takesData_iff] at takes
    split
    · unfold countWrite
      rw [e.channel n]
      refine e.record _ fun h => ?_
      obtain ⟨d, held⟩ := h.block_of_data takes rfl deliver fun m desc => by rw [desc] at writes; cases writes
      exact h.written held takes rfl deliver writes
    · exact e.work.trans (.enterFaulted a n _)
  · exact e.work

theorem deliverDataRead (reads : y.purpose.reads = true) (r : BusRead) :
    BlockWork n s (deliverDataRead n r a) := by
  unfold Machine.deliverDataRead
  split
  · next takes =>
    rw [e.channel n, takesData_iff] at takes
    split
    · next w =>
      unfold countRead
      rw [e.channel n]
      refine e.record _ fun h => ?_
      obtain ⟨d, held⟩ := h.block_of_data takes rfl deliver fun m desc => by rw [desc] at reads; cases reads
      exact h.read held takes rfl deliver reads w
    · exact e.work.trans (.enterFaulted a n _)
  · exact e.work

end EndsFlight

theorem BlockKept.completeDataWrite (s : State) (r : BusWrite) : BlockKept s (completeDataWrite r s) := by
  unfold Machine.completeDataWrite
  split
  · next n m p w addr d flight =>
    have marked : EndsFlight n ⟨.dataWrite n m p w, addr, d⟩ s
        (if modifiedBy r d then setModified m p (freePort s) else freePort s) := by
      split
      · exact ⟨flight, rfl, rfl, rfl, rfl⟩
      · exact ⟨flight, rfl, rfl, rfl, rfl⟩
    exact (marked.handBack fun deliver => marked.deliverDataWrite deliver rfl r).finishEvent
  · exact .refl s

theorem BlockKept.completeDataRead (s : State) (r : BusRead) : BlockKept s (completeDataRead r s) := by
  unfold Machine.completeDataRead
  split
  · next n m p addr d flight =>
    have ends : EndsFlight n ⟨.dataRead n m p, addr, d⟩ s (freePort s) := ⟨flight, rfl, rfl, rfl, rfl⟩
    exact (ends.handBack fun deliver => ends.deliverDataRead deliver rfl r).finishEvent
  · exact .refl s

/-! ### The loader and the log writer (R86 to R88, R138 to R145) -/

/-- A port freed of a transaction that is none of a channel's. -/
theorem BlockKept.freeBeside (flight : s.port.inFlight = some y) (none : y.purpose.requester = none) :
    BlockKept s (freePort s) where
  account h := accountInv_iff.mpr fun n => by
    have fits := accountInv_iff.mp h n
    rw [ownTransaction_of_other flight (by rw [none]; simp)] at fits
    rw [ownTransaction_of_free rfl]
    exact fits
  slots h := ⟨h.answer, h.early, h.none, h.fail⟩

theorem BlockKept.deliverMapRead (s : State) (r : BusRead) : BlockKept s (deliverMapRead r s) := by
  unfold Machine.deliverMapRead
  split
  · unfold fillEntry
    dsimp only
    split
    · exact .of_tables
    · exact .of_tables
  · exact .of_tables
  · exact .refl s

theorem BlockKept.completeMapRead (s : State) (r : BusRead) : BlockKept s (completeMapRead r s) := by
  unfold Machine.completeMapRead
  split
  · next flight =>
    have freed := freeBeside flight rfl
    split
    · exact (freed.trans (deliverMapRead _ r)).finishEvent
    · exact freed.finishEvent
  · exact .refl s

theorem BlockKept.markLogged (s : State) (n : ChannelNo) : BlockKept s (markLogged n s) := by
  unfold Machine.markLogged
  split
  · exact .putChannel s n _
  · exact .refl s

theorem BlockKept.logWordDone (s : State) (u : UnderWay) : BlockKept s (logWordDone u s) := by
  unfold Machine.logWordDone
  split
  · split
    · next n _ => exact (markLogged s n).trans .of_tables
    · unfold finishOverflowRecord
      dsimp only
      split
      · exact .of_tables
      · exact .of_tables
  · exact .of_tables

theorem BlockKept.deliverLogWrite (s : State) (r : BusWrite) : BlockKept s (deliverLogWrite r s) := by
  unfold Machine.deliverLogWrite
  split
  · exact logWordDone s _
  · exact .of_tables
  · exact .refl s

theorem BlockKept.completeLogWrite (s : State) (r : BusWrite) : BlockKept s (completeLogWrite r s) := by
  unfold Machine.completeLogWrite
  split
  · next flight =>
    have freed := freeBeside flight rfl
    split
    · exact (freed.trans (deliverLogWrite _ r)).finishEvent
    · exact freed.finishEvent
  · exact .refl s

end Sys2Proof.Machine
end

section
/-! SUPPORT. What the host commands keep of the account of the words and of the conversations of the slots (for O56 and
O58): R15 to R27 for the channel commands. -/

namespace Sys2Proof.Machine

-- The proofs are elaborated in turn: side by side their threads outgrow the check's memory limit.
set_option Elab.async false

variable {s t : State} {n : ChannelNo} {c b : Channel} {x : Option Transaction} {l : Latched}

/-! ### A channel that stays beside its block (R15, R16, R27) -/

/-- A channel that goes from one state beside its block to another keeps no words, and awaits nothing. -/
theorem AccountFits.aside (h : AccountFits c x) (before : isAside c.state = true) (after : isAside b.state = true)
    (contents : contentsFit b) (staging : b.staging = c.staging := by rfl) : AccountFits b x :=
  .of_aside after contents (staging.trans (h.staging_eq_nil (inBlock_of_aside before))) (h.noDelivery before)

/-- A command that completes on the event of its write with the record of its channel replaced by `c`, which stands in a
state beside the block as before. -/
theorem BlockKept.replaced (n : ChannelNo) (c : Channel) (channels : t.channels = (s.putChannel n c).channels)
    (before : answersAtOnce (s.channel n).state ∧ isAside (s.channel n).state = true)
    (account : AccountFits (s.channel n) (ownTransaction s n) → AccountFits c (ownTransaction s n))
    (request : c.request = (s.channel n).request := by rfl) (slots : t.slots = s.slots := by rfl)
    (port : t.port = s.port := by rfl) : BlockKept s t :=
  (BlockKept.putChannel s n c account request fun _ => before.1).trans (.of_tables channels slots port)

theorem BlockKept.takeBind (l : Latched)
    (state : (s.channel (channelOfOperand l.a)).state = .disabled ∨ (s.channel (channelOfOperand l.a)).state = .idle) :
    BlockKept s (takeBind l s) := by
  have before : answersAtOnce (s.channel (channelOfOperand l.a)).state ∧
      isAside (s.channel (channelOfOperand l.a)).state = true := by
    rcases state with e | e <;> rw [e] <;> exact ⟨rfl, rfl⟩
  have bare : contentsFit (s.channel (channelOfOperand l.a)) →
      (s.channel (channelOfOperand l.a)).resume = none ∧ (s.channel (channelOfOperand l.a)).contents = none := by
    rcases state with e | e
    · exact (contentsFit_bare (.inr (.inr (.inl e)))).mp
    · exact (contentsFit_bare (.inr (.inl e))).mp
  exact .replaced (channelOfOperand l.a) _ rfl before fun h =>
    h.aside before.2 rfl ((contentsFit_bare (.inr (.inl rfl))).mpr (bare h.contents))

theorem BlockKept.takeUnbind (l : Latched) (state : (s.channel (channelOfOperand l.a)).state = .idle) :
    BlockKept s (takeUnbind l s) := by
  have before : answersAtOnce (s.channel (channelOfOperand l.a)).state ∧
      isAside (s.channel (channelOfOperand l.a)).state = true := by
    rw [state]
    exact ⟨rfl, rfl⟩
  exact .replaced (channelOfOperand l.a) _ rfl before fun h =>
    .of_aside rfl ((contentsFit_bare (.inr (.inr (.inl rfl)))).mpr ⟨rfl, rfl⟩) rfl (h.noDelivery before.2)

theorem BlockKept.takeClearFault (l : Latched) (state : (s.channel (channelOfOperand l.a)).state = .faulted) :
    BlockKept s (takeClearFault l s) := by
  have before : answersAtOnce (s.channel (channelOfOperand l.a)).state ∧
      isAside (s.channel (channelOfOperand l.a)).state = true := by
    rw [state]
    exact ⟨rfl, rfl⟩
  exact .replaced (channelOfOperand l.a) _ rfl before fun h => h.aside before.2 rfl
    ((contentsFit_bare (.inr (.inl rfl))).mpr ⟨(contentsFit_faulted state).mp h.contents, rfl⟩)

/-! ### START, HALT and ABORT (R17, R18, R24) -/

theorem BlockKept.takeStart (l : Latched) (state : (s.channel (channelOfOperand l.a)).state = .idle) :
    BlockKept s (takeStart l s) := by
  have completed : BlockWork (channelOfOperand l.a) s (completeCommand .ok s) := .of_tables
  refine (completed.trans (.putAndFetch _ _ _ _ fun h => ?_)).finishChannelEvent
  have fits : AccountFits (s.channel (channelOfOperand l.a)) (ownTransaction s (channelOfOperand l.a)) := h
  have aside : isAside (s.channel (channelOfOperand l.a)).state = true := (congrArg isAside state).trans rfl
  obtain ⟨resume, -⟩ := (contentsFit_bare (.inr (.inl state))).mp fits.contents
  exact ⟨resume, fits.staging_eq_nil (inBlock_of_aside aside), fits.noDelivery aside⟩

theorem BlockKept.takeHalt (l : Latched) (state : (s.channel (channelOfOperand l.a)).state = .fetching ∨
    (s.channel (channelOfOperand l.a)).state = .running) : BlockKept s (takeHalt l s) := by
  have halted : BlockWork (channelOfOperand l.a) s (s.putChannel (channelOfOperand l.a)
      { s.channel (channelOfOperand l.a) with
        state := .halting
        resume := some (if (s.channel (channelOfOperand l.a)).state = .running then .running else .fetching) }) :=
    .putChannel s _ _ fun h => AccountFits.halt h state
  exact halted.finishChannelEvent

theorem BlockKept.takeAbort (l : Latched) (s : State) : BlockKept s (takeAbort l s) :=
  (BlockWork.enterAborting s _).finishChannelEvent

/-! ### CONTINUE (R22, R23) -/

/-- A fetch that starts again holds no contents, and what was in flight is abandoned (R22). -/
theorem BlockWork.restartFetch (n : ChannelNo) (bare : contentsFit (s.channel n) → (s.channel n).contents = none) :
    BlockWork n s (restartFetch n s) := by
  rw [restartFetch_eq, discardTransaction_eq]
  exact abandons (c := { s.channel n with
      state := .fetching
      fetchProgress := 0
      fetched := []
      contents := none
      resume := none }) (l := s.slot n) rfl (by rw [State.putSlot_slot]; rfl) rfl
    (fun h => .of_begun rfl rfl rfl (AccountFits.staging_of_bare (c := s.channel n) h (bare h.contents))
      (noDelivery_abandoned _)) id

theorem BlockWork.continueFrom (s : State) (n : ChannelNo) : BlockWork n s (continueFrom n s) := by
  unfold Machine.continueFrom
  dsimp only
  split
  · next halted back => exact putChannel s n _ fun h => AccountFits.resumed h halted back
  · next halted other =>
    refine restartFetch n fun fits => ?_
    rcases (contentsFit_halted (.inr halted)).mp fits with ⟨back, -⟩ | ⟨-, bare⟩
    · exact absurd back other
    · exact bare
  · next holding _ =>
    exact settlingEnds (settleSelect_ends s n _) fun h => AccountFits.settles h (.inr holding)
  · next fetching => exact restartFetch n fun fits => ((contentsFit_bare (.inl fetching)).mp fits).2
  · exact refl s

theorem BlockKept.takeContinue (l : Latched) (s : State) : BlockKept s (takeContinue l s) := by
  have completed : BlockWork (channelOfOperand l.a) s (completeCommand .ok s) := .of_tables
  exact (completed.trans (.continueFrom _ _)).finishChannelEvent

/-! ### The map and the log commands (R84, R90, R147 to R149) -/

theorem BlockKept.takeLoadMap (l : Latched) (s : State) : BlockKept s (takeLoadMap l s) := by
  rw [takeLoadMap_eq]
  have formed : BlockKept s { s.putSet (setOfOperand l.a) { s.mapSet (setOfOperand l.a) with state := .loading } with
      loader := some (newLoader l) } := .of_tables
  exact (formed.trans (endDrain _)).finishEvent

theorem BlockKept.takeWriteEntry (l : Latched) (s : State) : BlockKept s (takeWriteEntry l s) := by
  unfold Machine.takeWriteEntry
  dsimp only
  split
  · exact .refl s
  · exact .of_tables

theorem BlockKept.takeSetLog (l : Latched) (s : State) : BlockKept s (takeSetLog l s) :=
  BlockKept.finishEvent .of_tables

theorem BlockKept.takeLogConsumed (l : Latched) (s : State) : BlockKept s (takeLogConsumed l s) :=
  BlockKept.finishEvent .of_tables

theorem BlockKept.takeLogStop (l : Latched) (s : State) : BlockKept s (takeLogStop l s) := by
  unfold Machine.takeLogStop
  split
  · exact .refl s
  · exact .of_tables

/-! ### Presenting a command (R163 to R165) -/

theorem BlockKept.takeCommand (cmd : HostCommand) (named : l.command = cmd) (check : stateCheck l s = none) :
    BlockKept s (takeCommand cmd l s) := by
  cases cmd with
  | bind => exact takeBind l (by simpa [stateCheck, named, badStateUnless_none] using check)
  | unbind =>
    have state : (s.channel (channelOfOperand l.a)).state = .idle ∧
        (s.channel (channelOfOperand l.a)).pendingEvent = none := by
      simpa [stateCheck, named, badStateUnless_none] using check
    exact takeUnbind l state.1
  | start => exact takeStart l (by simpa [stateCheck, named, badStateUnless_none] using check)
  | halt => exact takeHalt l (by simpa [stateCheck, named, badStateUnless_none] using check)
  | continueChannel => exact takeContinue l s
  | abort => exact takeAbort l s
  | clearFault =>
    refine takeClearFault l ?_
    by_contra other
    simp [stateCheck, named, clearFaultCheck, other] at check
  | readChannel => exact .of_tables
  | loadMap => exact takeLoadMap l s
  | writeEntry => exact takeWriteEntry l s
  | readEntry => exact .of_tables
  | probe => exact .of_tables
  | setLog => exact takeSetLog l s
  | logStop => exact takeLogStop l s
  | logConsumed => exact takeLogConsumed l s

theorem BlockKept.afterCommand (s : State) (code : BitVec 8) (r : ResultCode) (x y z : Word) :
    BlockKept s (Machine.refreshInterrupts (afterCommand code r x y z s)) := .of_tables

theorem BlockKept.presentCommand (s : State) (cmd : HostCommand) :
    BlockKept s (presentCommand cmd (Machine.takeCommand cmd) s) := by
  by_cases idle : PortIdle s
  · cases check : commandCheck (latch cmd s) s with
    | some r =>
      rw [presentCommand_refused s cmd _ idle r check]
      exact afterCommand s _ _ _ _ _
    | none =>
      rw [presentCommand_taken s cmd _ idle check]
      have during : BlockKept s (duringCommand cmd s) := .of_tables
      unfold commandCheck at check
      split at check
      · exact during.trans (takeCommand cmd rfl check)
      · cases check
  · rw [presentCommand_busy s cmd _ idle]
    exact .of_tables

theorem BlockKept.writeCommand (s : State) (w : Word) : BlockKept s (writeCommand w s) := by
  unfold Machine.writeCommand
  split
  · exact presentCommand s _
  · unfold presentUnknown
    split
    · exact .of_tables
    · exact .of_tables

end Sys2Proof.Machine
end

section
/-! SUPPORT. Every step keeps account of every word of every block (O56), and the conversation of every slot (O58). -/

namespace Sys2Proof.Machine

-- The proofs are elaborated in turn: side by side their threads outgrow the check's memory limit.
set_option Elab.async false

variable {s t : State} {n : ChannelNo}

/-! ### The event queue and the interval timer (R118, R153 to R159) -/

theorem BlockWork.movePending (s : State) (n : ChannelNo) (r : EventRecord) : BlockWork n s (movePending n r s) :=
  (putChannel s n { s.channel n with pendingEvent := none }).trans .of_tables

theorem BlockKept.popEvent (s : State) : BlockKept s (popEvent s) := by
  unfold Machine.popEvent
  split
  · exact .of_tables
  · next r _ _ =>
    have removed : BlockKept s (removeHead { s with readData := r.word1 }) := .of_tables
    dsimp only
    split
    · exact .of_tables
    · exact removed.trans (BlockWork.movePending _ _ _).finishChannelEvent

theorem BlockKept.faultStalled (due : List ChannelNo) : ∀ s : State, BlockKept s (faultStalled due s) := by
  induction due with
  | nil => exact fun s => .refl s
  | cons n rest ih => exact fun s => (enterFaulted s n .stallTimeout).trans (ih _)

/-- A tick raises the stall counters, which are none of the account (R158). -/
theorem BlockKept.ticked (s : State) : BlockKept s (ticked s) where
  account h := accountInv_iff.mpr fun n => by
    have fits := accountInv_iff.mp h n
    obtain ⟨k, raised⟩ := tickChannel_eq (s.channel n)
    rw [channel_ticked, raised, ownTransaction_of_port rfl]
    exact fits.of_record
  slots h := slotInv_iff.mpr fun n => by
    obtain ⟨pins, answered⟩ := slotInv_iff.mp h n
    obtain ⟨k, raised⟩ := tickChannel_eq (s.channel n)
    rw [channel_ticked, raised]
    exact ⟨pins, answered.free, answered.fail⟩

theorem BlockKept.tickEvent (s : State) : BlockKept s (tickEvent (restartPrescaler s)) := by
  have restarted : BlockKept s (restartPrescaler s) := .of_tables
  have drawn : BlockKept (Machine.ticked (restartPrescaler s))
      { Machine.ticked (restartPrescaler s) with tickDraws := s.tickDraws + 1 } := .of_tables
  rw [tickEvent_eq]
  exact (restarted.trans ((ticked _).trans (drawn.trans (faultStalled _ _)))).finishEvent

theorem BlockKept.microsecond (s : State) : BlockKept s (microsecond s) := by
  unfold Machine.microsecond
  split
  · exact .of_tables
  · exact tickEvent s

/-! ### The resets (R2, R110) -/

/-- A channel that has been reset is beside its block, with nothing of its own awaited. -/
theorem accountFits_reset {x : Option Transaction} (none : NoDelivery x) : AccountFits Channel.reset x :=
  .of_aside rfl ((contentsFit_bare (.inr (.inr (.inl rfl)))).mpr ⟨rfl, rfl⟩) rfl none

/-- A part that has been reset keeps the account and the conversations where nothing of a channel's is awaited and every
slot's pins fit a channel without a request. -/
theorem BlockKept.of_reset (channels : ∀ n, t.channel n = Channel.reset) (none : ∀ n, NoDelivery (ownTransaction t n))
    (pins : ∀ n, PinsFit (s.slot n) (s.channel n).request → PinsFit (t.slot n) Option.none) : BlockKept s t where
  account _ := accountInv_iff.mpr fun n => by
    rw [channels n]
    exact accountFits_reset (none n)
  slots h := slotInv_iff.mpr fun n => by
    rw [channels n]
    exact ⟨pins n (slotInv_iff.mp h n).1, .of_none rfl⟩

theorem BlockKept.powerOn (s : State) : BlockKept s (powerOn s) := by
  refine .of_reset (channel_of_replicate rfl) (fun n => ?_) fun n h => ?_
  · rw [ownTransaction_of_free rfl]
    exact noDelivery_none
  · have slot : (Machine.powerOn s).slot n = slotAfterPowerOn (s.slot n) :=
      getElem_mapTable slotAfterPowerOn s.slots n.val n.isLt
    rw [slot, slotAfterPowerOn_eq]
    split
    · exact ⟨fun up => ⟨(h.answer up).1, rfl⟩, h.early⟩
    · next down =>
      have down : (s.slot n).answerValid = false := by simpa using down
      exact BlockWork.pinsFit_turnedAway (pinsFit_down down (h.early_none down))

theorem BlockKept.softReset (s : State) : BlockKept s (softReset s) := by
  refine .of_reset (channel_of_replicate rfl) (fun n y own => ?_) fun n h => ?_
  · have flight : (portAfterSoftReset s.port).inFlight = some y := (ownTransaction_eq_some.mp own).1
    obtain ⟨z, -, rfl⟩ := Option.map_eq_some_iff.mp flight
    simp
  · rw [slot_softReset, slotAfterSoftReset]
    split
    · next stands =>
      refine ⟨fun up => ⟨up, rfl⟩, fun early => ?_⟩
      rw [(h.answer (h.early early)).2] at stands
      cases stands
    · exact ⟨fun up => ⟨(h.answer up).1, rfl⟩, h.early⟩

/-! ### The register window (R171, R173) -/

theorem BlockKept.writeControl (s : State) (w : Word) : BlockKept s (writeControl w s) := by
  unfold Machine.writeControl
  split
  · exact softReset s
  · exact finishEvent .of_tables

theorem BlockKept.writeTimerPeriod (s : State) (w : Word) : BlockKept s (writeTimerPeriod w s) := by
  unfold Machine.writeTimerPeriod
  split
  · exact .refl s
  · exact .of_tables

theorem BlockKept.windowWrite (s : State) (offset : BitVec 5) (w : Word) :
    BlockKept s (windowWrite offset w s) := by
  unfold Machine.windowWrite
  split
  · exact writeControl s w
  · exact .of_tables
  · exact writeCommand s w
  · exact .of_tables
  · exact .of_tables
  · exact .of_tables
  · exact .of_tables
  · exact writeTimerPeriod s w
  · exact .refl s

/-! ### Every command -/

/-- Every command keeps the account of the words and the conversations of the slots. -/
theorem BlockKept.exec (s : State) (c : Instr) (run : exec c s = .next t) : BlockKept s t := by
  cases c <;> injection run with run <;> subst run
  case powerOnReset => exact powerOn s
  case softReset w => exact softReset s
  case offer n w => exact (arrive s n _).finishEvent
  case ask n => exact (arrive s n _).finishEvent
  case endBlock n => exact (arrive s n _).finishEvent
  case fail n => exact (arriveFail s n).finishEvent
  case requestValidFall n => exact (lowerRequestValid s n).finishEvent
  case descReadComplete r => exact completeDescRead s r
  case dataWriteComplete r => exact completeDataWrite s r
  case dataReadComplete r => exact completeDataRead s r
  case mapReadComplete r => exact completeMapRead s r
  case logWriteComplete r => exact completeLogWrite s r
  case grant => exact .ite fun _ => (arbitrate s).finishEvent
  case tick => exact tickEvent s
  case stallTimeout n => exact .ite fun _ => (enterFaulted s n _).finishEvent
  case ageCondition => exact .ite fun _ => .of_tables
  case bind => exact presentCommand s .bind
  case unbind => exact presentCommand s .unbind
  case start => exact presentCommand s .start
  case halt => exact presentCommand s .halt
  case continueChannel => exact presentCommand s .continueChannel
  case abort => exact presentCommand s .abort
  case clearFault => exact presentCommand s .clearFault
  case readChannel => exact presentCommand s .readChannel
  case loadMap => exact presentCommand s .loadMap
  case writeEntry => exact presentCommand s .writeEntry
  case readEntry => exact presentCommand s .readEntry
  case probe => exact presentCommand s .probe
  case setLog => exact presentCommand s .setLog
  case logStop => exact presentCommand s .logStop
  case logConsumed => exact presentCommand s .logConsumed
  case unknownCommand w => exact writeCommand s w
  case masterEnable w => exact writeControl s w
  case interruptEnable w => exact writeControl s w
  case interruptStatusClear w => exact .of_tables
  case pop => exact popEvent s
  case eventSettingsWrite w => exact .of_tables
  case timerPeriodWrite w => exact writeTimerPeriod s w
  case registerWrite offset w => exact windowWrite s offset w
  case waitingRequestMet n => exact .ite fun _ => (BlockWork.meetRequest s n).finishChannelEvent
  case waitingPost n =>
    exact .ite fun _ => ((BlockWork.resumeSettling s n).trans (.leaveHalting _ n)).finishChannelEvent
  case blockComplete n => exact .ite fun _ => (BlockWork.completeBlock s n).finishChannelEvent
  case leaveHalting n => exact .ite fun _ => (BlockWork.leaveHalting s n).finishChannelEvent
  case leaveAborting n => exact .ite fun _ => (BlockWork.leaveAborting s n).finishChannelEvent
  case drainEnd => exact .ite fun _ => (endDrain s).finishEvent
  case writeEntryReplace => exact .ite fun _ => (endWriteEntry s).finishEvent
  case logRecordBegin => exact .ite fun _ => (beginRingRecord s).finishEvent
  case overflowRecordBegin => exact .ite fun _ => (beginOverflowRecord s).finishEvent
  case logStopComplete => exact .ite fun _ => (endLogStop s).finishEvent

/-- A step is a microsecond, or the next of the commands that wait. -/
theorem BlockKept.step (run : step s = .next t) : BlockKept s t := by
  rcases step_cases run with ⟨-, rfl⟩ | ⟨c, rest, -, run⟩
  · exact microsecond s
  · have taken : BlockKept s { s with pending := rest } := .of_tables
    exact taken.trans (exec _ c run)

/-- Settles O56: every event keeps the account of each channel with its own transaction in flight. -/
theorem wordAccountKept : Obligations.WordAccountKept := fun _ _ h run => (BlockKept.step run).account h

/-- Settles O58: every event keeps the pins of each slot in agreement with the request that stands there, and leaves no
request unanswered that its channel answers on arrival. -/
theorem slotInvariantKept : Obligations.SlotInvariantKept := fun _ _ h run => (BlockKept.step run).slots h

end Sys2Proof.Machine
end
